-- ==== Sys2Proof/Word.lean ====
section
/-! DEFINITION. The word types of the block and their plainest arithmetic (00_scope.md §7: all values unsigned, bit 0
the least significant). A single bit of a register or port is a `Bool`, `true` for 1. -/

namespace Sys2Proof

/-- One emitted byte (20_memory.md R55). -/
abbrev Byte := BitVec 8

/-- The 15-bit word of `crc.reg` and `fa.shreg` (10_state.md R25, R29). -/
abbrev Word15 := BitVec 15

/-- An input tick word, `rst ‖ run ‖ sink_ready ‖ rx_dom` (30_encoding.md R70). -/
abbrev TickWord := BitVec 4

end Sys2Proof
end

