-- ==== Sys2Proof/Config.lean ====
section
/-! DEFINITION. The configuration constants of the block (00_scope.md R5 to R9) and the free values: the inputs of a
tick that no stimulus fixes. -/

namespace Sys2Proof

/-- The three constants the rules read: `SETUP_TICKS`, `PERIOD_TICKS` (00_scope.md R5) and `IFG_BITS` (R9). They are
arguments of the model and never change while it runs (R5, 20_memory.md R59). -/
structure Config where
  setupTicks : Nat
  periodTicks : Nat
  ifgBits : Nat
  deriving DecidableEq, Repr

/-- The inputs of tick number `k` when the stimulus gives none: a free draw (44_byte_emitter.md R207;
93_implementation_defined.md I8, I9). No body: nothing can be proved of its value. -/
opaque Config.freeInput : Nat → TickWord

/-- `SETUP_TICKS = 7`, `PERIOD_TICKS = 10`, `IFG_BITS = 10`: the default segment lengths at one tick per quantum
(00_scope.md R8) and the recommended gap (R9). DESIGN CHOICE (log entry 1): only `State.reset` reads it. -/
def Config.default : Config := { setupTicks := 7, periodTicks := 10, ifgBits := 10 }

/-- The source's configuration record (00_scope.md R5): bit rate, the four segment lengths in quanta, the tick
frequency. -/
structure TimingProfile where
  bitRate : Nat
  sync : Nat
  prop : Nat
  seg1 : Nat
  seg2 : Nat
  sysClkHz : Nat
  deriving DecidableEq, Repr

namespace TimingProfile

/-- Quanta per bit, `sync+prop+seg1+seg2` (00_scope.md R5). -/
def quanta (p : TimingProfile) : Nat := p.sync + p.prop + p.seg1 + p.seg2

/-- 00_scope.md R6. A zero bit rate or a zero quanta sum gives 0, hence an illegal configuration (log entry 14). -/
def ticksPerQuantum (p : TimingProfile) : Nat := p.sysClkHz / (p.bitRate * p.quanta)

/-- `setup_ticks` of 00_scope.md R5. -/
def setupTicks (p : TimingProfile) : Nat := (p.sync + p.prop + p.seg1) * p.ticksPerQuantum

/-- `period_ticks` of 00_scope.md R5. -/
def periodTicks (p : TimingProfile) : Nat := p.quanta * p.ticksPerQuantum

/-- The constants a profile and a gap length give the block. -/
def config (p : TimingProfile) (ifgBits : Nat) : Config :=
  { setupTicks := p.setupTicks, periodTicks := p.periodTicks, ifgBits := ifgBits }

/-- The default segment lengths `sync=1, prop=3, seg1=3, seg2=3` (00_scope.md R8). -/
def ofRates (sysClkHz bitRate : Nat) : TimingProfile :=
  { bitRate := bitRate, sync := 1, prop := 3, seg1 := 3, seg2 := 3, sysClkHz := sysClkHz }

end TimingProfile

end Sys2Proof
end

