-- ==== Sys2Proof/Syntax.lean ====
section
/-! DEFINITION. The operations of the block: one constructor per row of spec/opcode_table.json, in the table's order.
An operation has no operand fields (30_encoding.md R83): its operands are registers and ports. -/

namespace Sys2Proof

/-- The 52 arms (30_encoding.md R80, §3). -/
inductive Instr where
  /-- `SYS.RESET` (70_reset_and_hazards.md R250). -/
  | sysReset
  /-- `SYS.HALT` (70_reset_and_hazards.md R251). -/
  | sysHalt
  /-- `BTR.WAIT` (40_bit_timing_recovery.md R102). -/
  | btrWait
  /-- `BTR.START` (40_bit_timing_recovery.md R103). -/
  | btrStart
  /-- `BTR.COUNT` (40_bit_timing_recovery.md R104). -/
  | btrCount
  /-- `BTR.SAMPLE` (40_bit_timing_recovery.md R105). -/
  | btrSample
  /-- `BTR.ROLL` (40_bit_timing_recovery.md R106). -/
  | btrRoll
  /-- `BTR.STOP` (40_bit_timing_recovery.md R107). -/
  | btrStop
  /-- `BDS.BYPASS` (41_bit_destuffer.md R122). -/
  | bdsBypass
  /-- `BDS.HOLD` (41_bit_destuffer.md R123). -/
  | bdsHold
  /-- `BDS.PASS_NEW` (41_bit_destuffer.md R124). -/
  | bdsPassNew
  /-- `BDS.PASS_RUN` (41_bit_destuffer.md R125). -/
  | bdsPassRun
  /-- `BDS.DESTUFF` (41_bit_destuffer.md R126). -/
  | bdsDestuff
  /-- `BDS.VIOLATION` (41_bit_destuffer.md R127). -/
  | bdsViolation
  /-- `CRC.CLEAR` (42_crc_engine.md R142). -/
  | crcClear
  /-- `CRC.HOLD` (42_crc_engine.md R143). -/
  | crcHold
  /-- `CRC.SHIFT` (42_crc_engine.md R144). -/
  | crcShift
  /-- `CRC.SHIFTX` (42_crc_engine.md R145). -/
  | crcShiftx
  /-- `EM.EMPTY` (44_byte_emitter.md R201). -/
  | emEmpty
  /-- `EM.PUSH` (44_byte_emitter.md R202). -/
  | emPush
  /-- `EM.STALL` (44_byte_emitter.md R203). -/
  | emStall
  /-- `FA.CANCEL` (43_frame_assembler.md R163). -/
  | faCancel
  /-- `FA.IDLE` (43_frame_assembler.md R164). -/
  | faIdle
  /-- `FA.START` (43_frame_assembler.md R165). -/
  | faStart
  /-- `FA.OVERRUN.START` (43_frame_assembler.md R183). -/
  | faOverrunStart
  /-- `FA.SOF` (43_frame_assembler.md R166). -/
  | faSof
  /-- `FA.ID_SHIFT` (43_frame_assembler.md R167). -/
  | faIdShift
  /-- `FA.ID_DONE` (43_frame_assembler.md R168). -/
  | faIdDone
  /-- `FA.HOLD.ID` (43_frame_assembler.md R182). -/
  | faHoldId
  /-- `FA.OVERRUN.ID` (43_frame_assembler.md R183). -/
  | faOverrunId
  /-- `FA.CTL_SHIFT` (43_frame_assembler.md R169). -/
  | faCtlShift
  /-- `FA.CTL_DONE_EMPTY` (43_frame_assembler.md R170). -/
  | faCtlDoneEmpty
  /-- `FA.CTL_DONE_DATA` (43_frame_assembler.md R171). -/
  | faCtlDoneData
  /-- `FA.CTL_DONE_ILLEGAL` (43_frame_assembler.md R172). -/
  | faCtlDoneIllegal
  /-- `FA.HOLD.CTL` (43_frame_assembler.md R182). -/
  | faHoldCtl
  /-- `FA.OVERRUN.CTL` (43_frame_assembler.md R183). -/
  | faOverrunCtl
  /-- `FA.DATA_SHIFT` (43_frame_assembler.md R173). -/
  | faDataShift
  /-- `FA.DATA_BYTE` (43_frame_assembler.md R174). -/
  | faDataByte
  /-- `FA.DATA_LAST` (43_frame_assembler.md R175). -/
  | faDataLast
  /-- `FA.HOLD.DATA` (43_frame_assembler.md R182). -/
  | faHoldData
  /-- `FA.OVERRUN.DATA` (43_frame_assembler.md R183). -/
  | faOverrunData
  /-- `FA.CRC_SHIFT` (43_frame_assembler.md R176). -/
  | faCrcShift
  /-- `FA.CRC_DONE` (43_frame_assembler.md R177). -/
  | faCrcDone
  /-- `FA.HOLD.CRC` (43_frame_assembler.md R182). -/
  | faHoldCrc
  /-- `FA.OVERRUN.CRC` (43_frame_assembler.md R183). -/
  | faOverrunCrc
  /-- `FA.CHECK_WAIT` (43_frame_assembler.md R178). -/
  | faCheckWait
  /-- `FA.CHECK` (43_frame_assembler.md R179). -/
  | faCheck
  /-- `FA.OVERRUN.CHECK` (43_frame_assembler.md R183). -/
  | faOverrunCheck
  /-- `FA.GAP_COUNT` (43_frame_assembler.md R180). -/
  | faGapCount
  /-- `FA.GAP_DONE` (43_frame_assembler.md R181). -/
  | faGapDone
  /-- `FA.HOLD.GAP` (43_frame_assembler.md R182). -/
  | faHoldGap
  /-- `FA.OVERRUN.GAP` (43_frame_assembler.md R183). -/
  | faOverrunGap
  deriving DecidableEq, Repr

end Sys2Proof
end

