-- ==== Sys2Proof/WellFormed.lean ====
section
/-! DEFINITION. What is well formed: a configuration, a selector word, and the bundle of operations one tick executes.
An operation alone has no fields, so every `Instr` is well formed. -/

namespace Sys2Proof

/-- Legal configurations (00_scope.md R7, R9): `1 <= SETUP_TICKS < PERIOD_TICKS` and `1 <= IFG_BITS <= 63`. -/
abbrev Config.Legal (c : Config) : Prop :=
  1 ≤ c.setupTicks ∧ c.setupTicks < c.periodTicks ∧ 1 ≤ c.ifgBits ∧ c.ifgBits ≤ 63

/-- The six selector formats (30_encoding.md R80): Y system, T BTR, S BDS, C CRC, E EM, A FA. -/
inductive Format where
  | y | t | s | c | e | a
  deriving DecidableEq, Repr

/-- Bits of a selector word of each format (30_encoding.md R80). -/
def Format.width : Format → Nat
  | .y => 2
  | .t => 5
  | .s => 4
  | .c => 3
  | .e => 2
  | .a => 12

/-- A selector word: its format and its bits, MOST significant first, as 30_encoding.md R80 writes them. -/
structure Selector where
  format : Format
  word : List Bool
  deriving DecidableEq, Repr

/-- A selector word has exactly its format's width. -/
abbrev Selector.WellFormed (x : Selector) : Prop := x.word.length = x.format.width

/-- The format an operation belongs to (30_encoding.md §3): the part of the block that executes it. -/
def Instr.format : Instr → Format
  | .sysReset | .sysHalt => .y
  | .btrWait | .btrStart | .btrCount | .btrSample => .t
  | .btrRoll | .btrStop => .t
  | .bdsBypass | .bdsHold | .bdsPassNew | .bdsPassRun => .s
  | .bdsDestuff | .bdsViolation => .s
  | .crcClear | .crcHold | .crcShift | .crcShiftx => .c
  | .emEmpty | .emPush | .emStall => .e
  | .faCancel | .faIdle | .faStart | .faOverrunStart => .a
  | .faSof | .faIdShift | .faIdDone | .faHoldId => .a
  | .faOverrunId | .faCtlShift | .faCtlDoneEmpty | .faCtlDoneData => .a
  | .faCtlDoneIllegal | .faHoldCtl | .faOverrunCtl | .faDataShift => .a
  | .faDataByte | .faDataLast | .faHoldData | .faOverrunData => .a
  | .faCrcShift | .faCrcDone | .faHoldCrc | .faOverrunCrc => .a
  | .faCheckWait | .faCheck | .faOverrunCheck | .faGapCount => .a
  | .faGapDone | .faHoldGap | .faOverrunGap => .a

/-- What one tick executes (30_encoding.md R80, §3): one system operation, or one operation of each of BTR, BDS, CRC,
EM and FA. -/
inductive Bundle where
  | system (y : Instr)
  | arms (t s c e a : Instr)
  deriving DecidableEq, Repr

/-- Each slot of a bundle holds an operation of its own component. -/
abbrev Bundle.WellFormed : Bundle → Prop
  | .system y => y.format = .y
  | .arms t s c e a => t.format = .t ∧ s.format = .s ∧ c.format = .c ∧ e.format = .e ∧ a.format = .a

end Sys2Proof
end

