-- ==== Sys2Proof/Decode.lean ====
section
/-! DEFINITION. Decoding and encoding of selector words (30_encoding.md R80 to R82), both from one table of patterns.
A pattern is written as the spec prints it, most significant bit first. -/

namespace Sys2Proof

/-- One bit of a pattern: `o` is 0, `i` is 1, `x` is either value (30_encoding.md R80). -/
inductive PatBit where
  | o | i | x
  deriving DecidableEq, Repr

/-- The bit values a pattern bit admits. -/
def PatBit.admits : PatBit → Bool → Bool
  | .o, b => !b
  | .i, b => b
  | .x, _ => true

/-- A word matches a pattern: the same length and every bit admitted. -/
def patMatches : List PatBit → List Bool → Bool
  | [], [] => true
  | p :: ps, b :: bs => p.admits b && patMatches ps bs
  | _, _ => false

/-- The pattern of each operation, as 30_encoding.md R80 prints it. -/
def patternOf : Instr → List PatBit
  | .sysReset => [.i, .x]
  | .sysHalt => [.o, .i]
  | .btrWait => [.o, .o, .x, .x, .x]
  | .btrStart => [.o, .i, .x, .x, .x]
  | .btrCount => [.i, .x, .o, .o, .x]
  | .btrSample => [.i, .x, .i, .o, .x]
  | .btrRoll => [.i, .x, .o, .i, .i]
  | .btrStop => [.i, .x, .o, .i, .o]
  | .bdsBypass => [.o, .x, .x, .x]
  | .bdsHold => [.i, .o, .x, .x]
  | .bdsPassNew => [.i, .i, .i, .o]
  | .bdsPassRun => [.i, .i, .o, .o]
  | .bdsDestuff => [.i, .i, .i, .i]
  | .bdsViolation => [.i, .i, .o, .i]
  | .crcClear => [.i, .x, .x]
  | .crcHold => [.o, .o, .x]
  | .crcShift => [.o, .i, .o]
  | .crcShiftx => [.o, .i, .i]
  | .emEmpty => [.o, .x]
  | .emPush => [.i, .i]
  | .emStall => [.i, .o]
  | .faCancel => [.o, .x, .x, .x, .x, .x, .x, .x, .x, .x, .x, .x]
  | .faIdle => [.i, .o, .o, .o, .o, .x, .x, .x, .x, .x, .x, .x]
  | .faStart => [.i, .o, .o, .o, .i, .x, .o, .x, .x, .x, .x, .x]
  | .faOverrunStart => [.i, .o, .o, .o, .i, .x, .i, .x, .x, .x, .x, .x]
  | .faSof => [.i, .o, .o, .i, .x, .i, .o, .i, .x, .x, .x, .x]
  | .faIdShift => [.i, .o, .o, .i, .x, .i, .o, .o, .o, .x, .x, .x]
  | .faIdDone => [.i, .o, .o, .i, .x, .i, .o, .o, .i, .x, .x, .x]
  | .faHoldId => [.i, .o, .o, .i, .x, .o, .x, .x, .x, .x, .x, .x]
  | .faOverrunId => [.i, .o, .o, .i, .x, .i, .i, .x, .x, .x, .x, .x]
  | .faCtlShift => [.i, .o, .i, .o, .x, .i, .o, .x, .o, .x, .x, .x]
  | .faCtlDoneEmpty => [.i, .o, .i, .o, .x, .i, .o, .x, .i, .o, .o, .x]
  | .faCtlDoneData => [.i, .o, .i, .o, .x, .i, .o, .x, .i, .o, .i, .x]
  | .faCtlDoneIllegal => [.i, .o, .i, .o, .x, .i, .o, .x, .i, .i, .o, .x]
  | .faHoldCtl => [.i, .o, .i, .o, .x, .o, .x, .x, .x, .x, .x, .x]
  | .faOverrunCtl => [.i, .o, .i, .o, .x, .i, .i, .x, .x, .x, .x, .x]
  | .faDataShift => [.i, .o, .i, .i, .x, .i, .o, .x, .o, .x, .x, .x]
  | .faDataByte => [.i, .o, .i, .i, .x, .i, .o, .x, .i, .x, .x, .o]
  | .faDataLast => [.i, .o, .i, .i, .x, .i, .o, .x, .i, .x, .x, .i]
  | .faHoldData => [.i, .o, .i, .i, .x, .o, .x, .x, .x, .x, .x, .x]
  | .faOverrunData => [.i, .o, .i, .i, .x, .i, .i, .x, .x, .x, .x, .x]
  | .faCrcShift => [.i, .i, .o, .o, .x, .i, .o, .x, .o, .x, .x, .x]
  | .faCrcDone => [.i, .i, .o, .o, .x, .i, .o, .x, .i, .x, .x, .x]
  | .faHoldCrc => [.i, .i, .o, .o, .x, .o, .x, .x, .x, .x, .x, .x]
  | .faOverrunCrc => [.i, .i, .o, .o, .x, .i, .i, .x, .x, .x, .x, .x]
  | .faCheckWait => [.i, .i, .o, .i, .x, .o, .i, .x, .x, .x, .x, .x]
  | .faCheck => [.i, .i, .o, .i, .x, .x, .o, .x, .x, .x, .x, .x]
  | .faOverrunCheck => [.i, .i, .o, .i, .x, .i, .i, .x, .x, .x, .x, .x]
  | .faGapCount => [.i, .i, .i, .o, .x, .i, .o, .x, .o, .x, .x, .x]
  | .faGapDone => [.i, .i, .i, .o, .x, .i, .o, .x, .i, .x, .x, .x]
  | .faHoldGap => [.i, .i, .i, .o, .x, .o, .x, .x, .x, .x, .x, .x]
  | .faOverrunGap => [.i, .i, .i, .o, .x, .i, .i, .x, .x, .x, .x, .x]

/-- The rows of each format, in the table's order. -/
def rowsOf : Format → List Instr
  | .y =>
    [.sysReset, .sysHalt]
  | .t =>
    [.btrWait, .btrStart, .btrCount, .btrSample, .btrRoll, .btrStop]
  | .s =>
    [.bdsBypass, .bdsHold, .bdsPassNew, .bdsPassRun, .bdsDestuff, .bdsViolation]
  | .c =>
    [.crcClear, .crcHold, .crcShift, .crcShiftx]
  | .e =>
    [.emEmpty, .emPush, .emStall]
  | .a =>
    [.faCancel, .faIdle, .faStart, .faOverrunStart, .faSof, .faIdShift, .faIdDone, .faHoldId] ++
    [.faOverrunId, .faCtlShift, .faCtlDoneEmpty, .faCtlDoneData, .faCtlDoneIllegal, .faHoldCtl, .faOverrunCtl, .faDataShift] ++
    [.faDataByte, .faDataLast, .faHoldData, .faOverrunData, .faCrcShift, .faCrcDone, .faHoldCrc, .faOverrunCrc] ++
    [.faCheckWait, .faCheck, .faOverrunCheck, .faGapCount, .faGapDone, .faHoldGap, .faOverrunGap]

/-- Every operation, in the table's order by format. -/
def allInstr : List Instr :=
  rowsOf .y ++ rowsOf .t ++ rowsOf .s ++ rowsOf .c ++ rowsOf .e ++ rowsOf .a

/-- Why a selector word is no operation. -/
inductive DecodeError where
  /-- The word has not its format's width. -/
  | wrongWidth
  /-- Format Y, word `00`: no system operation, the five component arms execute (30_encoding.md R80). -/
  | noSystemRow
  /-- A word 30_encoding.md R80 marks unreachable, which R82 (d) gives no meaning. -/
  | unreachablePattern
  deriving DecidableEq, Repr

/-- The decoder: total, first matching row of the word's format (the patterns of a format are pairwise disjoint, R80). -/
def decode (x : Selector) : Except DecodeError Instr :=
  if x.word.length = x.format.width then
    match (rowsOf x.format).find? (fun i => patMatches (patternOf i) x.word) with
    | some i => .ok i
    | none => .error (if x.format = .y then .noSystemRow else .unreachablePattern)
  else .error .wrongWidth

/-- A word of a pattern: its `x` bits filled from `fill` in order, 0 when `fill` is used up. -/
def fillPattern : List PatBit → List Bool → List Bool
  | [], _ => []
  | .o :: ps, fill => false :: fillPattern ps fill
  | .i :: ps, fill => true :: fillPattern ps fill
  | .x :: ps, [] => false :: fillPattern ps []
  | .x :: ps, b :: fill => b :: fillPattern ps fill

/-- An encoding of an operation, its either-value bits filled from `fill`. -/
def encodeWith (i : Instr) (fill : List Bool) : Selector :=
  { format := i.format, word := fillPattern (patternOf i) fill }

/-- The encoder: the encoding whose either-value bits are 0, the table's "match". -/
def encode (i : Instr) : Selector := encodeWith i []

/-- The low `width` bits of a number, most significant first. -/
def bitsMsbFirst : (width : Nat) → Nat → List Bool
  | 0, _ => []
  | k + 1, n => n.testBit k :: bitsMsbFirst k n

/-- The number a word of bits, most significant first, stands for. -/
def natOfBits (bs : List Bool) : Nat := bs.foldl (fun n b => 2 * n + b.toNat) 0

/-- The formats a table word of `nbits` bits may have, narrowest first: the formats of exactly that width, else those
whose width rounds up to `nbits` in whole bytes (log entry 5). -/
def formatsFor (nbits : Nat) : List Format :=
  let order : List Format := [.y, .e, .c, .s, .t, .a]
  match order.filter (fun f => f.width == nbits) with
  | [] => order.filter (fun f => (f.width + 7) / 8 * 8 == nbits)
  | fs => fs

/-- What a word of `nbits` bits decodes to in each format that may have it. -/
def tableCandidates (nbits w : Nat) : List Instr :=
  (formatsFor nbits).filterMap fun f =>
    if w < 2 ^ f.width then (decode { format := f, word := bitsMsbFirst f.width w }).toOption else none

/-- The operation of a table word. A selector word does not name its own format, so a word several formats have is
given to the narrowest format in which it is a row's own "match" word, else to the narrowest that has it
(DESIGN CHOICE, log entry 5). The machine itself never decodes without a format. -/
def decodeTableWord (nbits w : Nat) : Option Instr :=
  match (tableCandidates nbits w).find? (fun i => natOfBits (encode i).word == w) with
  | some i => some i
  | none => (tableCandidates nbits w).head?

end Sys2Proof
end

