-- ==== Sys2Proof/Machine/State.lean ====
section
/-! DEFINITION. The state of the block (10_state.md): its registers, the ports of the tick, the configuration, and the
environment's side of the two streams. Plain data. -/

namespace Sys2Proof.Machine

/-- `btr.state` (10_state.md R20). -/
inductive BtrState where
  | idle | running
  deriving DecidableEq, Repr

/-- `fa.phase` (10_state.md R26). Code 7 of 30_encoding.md R81 has no constructor (R82 (d)). -/
inductive Phase where
  | idle | arbitrationId | arbitrationControl | data | crc | crcCheck | idleWait
  deriving DecidableEq, Repr

/-- The registers of BitTimingRecovery (10_state.md R20 to R22). -/
structure Btr where
  state : BtrState
  cnt : Nat
  prevDom : Bool
  deriving DecidableEq, Repr

/-- The registers of BitDestuffer (10_state.md R23, R24). -/
structure Bds where
  lastBit : Bool
  runLen : Nat
  deriving DecidableEq, Repr

/-- The register of CrcEngine (10_state.md R25). -/
structure Crc where
  reg : Word15
  deriving DecidableEq, Repr

/-- The registers of FrameAssembler (10_state.md R26 to R31). -/
structure Fa where
  phase : Phase
  cnt : Nat
  byteCnt : Nat
  shreg : Word15
  sofPending : Bool
  stuffFlag : Bool
  deriving DecidableEq, Repr

/-- The register of the byte emitter (10_state.md R33): element 0 is pushed next. -/
structure Em where
  pend : List Byte
  deriving DecidableEq, Repr

/-- The whole architectural state (10_state.md R40): every register of R20 to R34. -/
structure Regs where
  btr : Btr
  bds : Bds
  crc : Crc
  fa : Fa
  em : Em
  overrun : Bool
  deriving DecidableEq, Repr

/-- The input ports of one tick (10_state.md R37). -/
structure Inputs where
  rst : Bool
  run : Bool
  sinkReady : Bool
  rxDom : Bool
  deriving DecidableEq, Repr

/-- The output ports of one tick (10_state.md R38). -/
structure Outputs where
  byteValid : Bool
  byteData : Byte
  stuffError : Bool
  stuffFlag : Bool
  overrun : Bool
  boundary : Bool
  sample : Bool
  bitReady : Bool
  deriving DecidableEq, Repr

/-- The machine: registers, then the model's own fields (log entries 1 to 3): the configuration, the ports of the tick,
the stimulus still to come, the index of the next free draw, the bytes the sink has taken. -/
structure State extends Regs where
  cfg : Config
  inp : Inputs
  out : Outputs
  stim : List TickWord
  ticks : Nat
  stream : List Byte
  deriving DecidableEq, Repr

/-- No step of this machine stops with a fault: the block's one fault, Overrun, is the register `overrun`, whose halted
state only `rst` leaves (60_exceptions.md R224, 70_reset_and_hazards.md R251), and both are next states (log entry 7). -/
inductive Fault
  deriving DecidableEq, Repr

/-- Why a step refuses. -/
inductive Refusal where
  /-- An arm of `exec` with no meaning yet; raised by `exec` alone; safe. No arm raises it now. -/
  | notModelled (mnemonic : String)
  /-- The configuration is not legal; raised by `step`; safe: 00_scope.md R7 "A configuration outside these bounds is
  refused (not modelled)". -/
  | illegalConfiguration
  /-- A register holds a value of 30_encoding.md R82 (d) and a component arm would execute; raised by `tick`; safe. -/
  | unreachableEncoding
  /-- A selector word is one 30_encoding.md R80 marks unreachable; raised by `tick`; safe; with a legal configuration no
  state gives one. -/
  | unreachableSelector
  deriving DecidableEq, Repr

/-- The three outcomes of this machine. -/
abbrev Outcome := Host.Outcome State Fault Refusal

/-- Every register at its reset value (70_reset_and_hazards.md R250). -/
def Regs.reset : Regs :=
  { btr := { state := .idle, cnt := 0, prevDom := false }
    bds := { lastBit := true, runLen := 0 }
    crc := { reg := 0 }
    fa := { phase := .idle, cnt := 0, byteCnt := 0, shreg := 0, sofPending := false, stuffFlag := false }
    em := { pend := [] }
    overrun := false }

/-- Every input 0. -/
def Inputs.zero : Inputs := { rst := false, run := false, sinkReady := false, rxDom := false }

/-- Every output 0 (the outputs of a reset tick, 70_reset_and_hazards.md R250). -/
def Outputs.zero : Outputs :=
  { byteValid := false, byteData := 0, stuffError := false, stuffFlag := false, overrun := false, boundary := false,
    sample := false, bitReady := false }

/-- The machine after reset in a given configuration (70_reset_and_hazards.md R250, R252). The fields outside `Regs` are
DESIGN CHOICE (log entry 12). -/
def State.resetWith (c : Config) : State :=
  { Regs.reset with cfg := c, inp := .zero, out := .zero, stim := [], ticks := 0, stream := [] }

/-- The machine right after reset (70_reset_and_hazards.md R252); its configuration is DESIGN CHOICE (log entry 1). -/
def State.reset : State := State.resetWith .default

end Sys2Proof.Machine
end

