-- ==== Sys2Proof/Machine/Operands.lean ====
section
/-! DEFINITION. The operand forms: the bit of the tick, the incremented counter, the shift register with this tick's bit,
and the fields and bytes read from it (30_encoding.md R72, R74). -/

namespace Sys2Proof.Machine

/-- The CRC constant `0x4599` (00_scope.md R10, 42_crc_engine.md R140). -/
def crcPoly : Word15 := 0x4599#15

/-- The four ports of a tick word (30_encoding.md R70): bit 3 `rst`, bit 2 `run`, bit 1 `sink_ready`, bit 0 `rx_dom`. -/
def Inputs.ofWord (w : TickWord) : Inputs :=
  { rst := w.getLsbD 3, run := w.getLsbD 2, sinkReady := w.getLsbD 1, rxDom := w.getLsbD 0 }

/-- The tick word of four ports (30_encoding.md R70). -/
def Inputs.toWord (p : Inputs) : TickWord :=
  BitVec.ofNat 4 (8 * p.rst.toNat + 4 * p.run.toNat + 2 * p.sinkReady.toNat + p.rxDom.toNat)

/-- `bit = 1 - rx_dom`: dominant is 0, recessive is 1 (00_scope.md R4, 40_bit_timing_recovery.md R111). -/
def State.rxBit (s : State) : Bool := !s.inp.rxDom

/-- `n = btr.cnt + 1` (40_bit_timing_recovery.md R101), exact (10_state.md R45 (a)). -/
def State.nextCnt (s : State) : Nat := s.btr.cnt + 1

/-- `((x << 1) | b)[14:0]` (10_state.md R45 (d), 43_frame_assembler.md R161). -/
def shiftIn (x : Word15) (b : Bool) : Word15 := (x <<< 1) ||| (if b then 1#15 else 0#15)

/-- `sh`, the shift register with this tick's bit (43_frame_assembler.md R161). -/
def State.sh (s : State) : Word15 := shiftIn s.fa.shreg s.rxBit

/-- The length code `sh[3:0]` (30_encoding.md R72, 43_frame_assembler.md R161). -/
def lengthCode (sh : Word15) : Nat := (sh.extractLsb' 0 4).toNat

/-- `zext_8(sh[10:8])`, the identifier's high byte (30_encoding.md R74). -/
def idHighByte (sh : Word15) : Byte := (sh.extractLsb' 8 3).setWidth 8

/-- `zext_8(sh[3:0])`, the length/flags byte (30_encoding.md R74). -/
def lengthByte (sh : Word15) : Byte := (sh.extractLsb' 0 4).setWidth 8

/-- `sh[7:0]`: a data byte, and the low byte of the identifier and of the CRC field (30_encoding.md R74). -/
def lowByte (sh : Word15) : Byte := sh.extractLsb' 0 8

/-- `zext_8(sh[14:8])`, the high byte of the CRC field (30_encoding.md R74). -/
def crcHighByte (sh : Word15) : Byte := (sh.extractLsb' 8 7).setWidth 8

/-- The status byte, `01` when the CRC register is 0, else `00` (43_frame_assembler.md R179). -/
def statusByte (crcReg : Word15) : Byte := if crcReg = 0#15 then 1#8 else 0#8

/-- The CRC step with feedback 0 (42_crc_engine.md R144). -/
def crcShifted (x : Word15) : Word15 := x <<< 1

/-- The CRC step with feedback 1 (42_crc_engine.md R145). -/
def crcShiftedXor (x : Word15) : Word15 := (x <<< 1) ^^^ crcPoly

end Sys2Proof.Machine
end

