-- ==== Sys2Proof/Machine/Flags.lean ====
section
/-! DEFINITION. The combinational signals (10_state.md R39) and the one stored condition flag (43_frame_assembler.md
R184). Each reads the pre-tick registers, the inputs `inp` of the tick, and in `out` the strobes that components earlier
in the order of 00_scope.md R3 raised in this tick. -/

namespace Sys2Proof.Machine

/-- `edge`: a recessive-to-dominant transition (40_bit_timing_recovery.md R101). -/
def State.edge (s : State) : Bool := !s.btr.prevDom && s.inp.rxDom

/-- `start_edge`: an edge while BTR is `Idle` (40_bit_timing_recovery.md R101). -/
def State.startEdge (s : State) : Bool := s.btr.state == .idle && s.edge

/-- `keep` (40_bit_timing_recovery.md R101). -/
def State.keep (s : State) : Bool := s.inp.run && s.fa.phase != .idle

/-- `n = SETUP_TICKS` (40_bit_timing_recovery.md R101, 30_encoding.md R80). -/
def State.atSetup (s : State) : Bool := s.nextCnt == s.cfg.setupTicks

/-- `n >= PERIOD_TICKS` (40_bit_timing_recovery.md R101, 30_encoding.md R80). -/
def State.atPeriod (s : State) : Bool := s.cfg.periodTicks ≤ s.nextCnt

/-- The phases in which stuffed frame bits arrive (41_bit_destuffer.md R121). -/
def Phase.framing : Phase → Bool
  | .arbitrationId | .arbitrationControl | .data | .crc => true
  | .idle | .crcCheck | .idleWait => false

/-- `framing` (41_bit_destuffer.md R121). -/
def State.framing (s : State) : Bool := s.fa.phase.framing

/-- `stuff_pos`: five identical bits have been seen (41_bit_destuffer.md R121). -/
def State.stuffPos (s : State) : Bool := s.bds.runLen == 4

/-- `differs` (41_bit_destuffer.md R121). -/
def State.differs (s : State) : Bool := s.rxBit != s.bds.lastBit

/-- `crc_clear` (42_crc_engine.md R141). -/
def State.crcClear (s : State) : Bool := s.fa.phase == .idle

/-- `crc_en`, from the raw `sample`, not from `bit_ready` (42_crc_engine.md R141, R146). -/
def State.crcEn (s : State) : Bool := s.framing && s.out.sample

/-- `fb = bit xor crc.reg[14]` (42_crc_engine.md R141). -/
def State.fb (s : State) : Bool := s.rxBit ^^ s.crc.reg.getLsbD 14

/-- `blocked`: FA is suspended in its emitting call (43_frame_assembler.md R161). -/
def State.blocked (s : State) : Bool := !s.em.pend.isEmpty

/-- `last`: this `bit_ready` completes the field or the gap (43_frame_assembler.md R161). -/
def State.last (s : State) : Bool := s.fa.cnt ≤ 1

/-- `dlc` (43_frame_assembler.md R161). -/
def State.dlc (s : State) : Nat := lengthCode s.sh

/-- `fa.byte_cnt <= 1` (30_encoding.md R80). -/
def State.lastByte (s : State) : Bool := s.fa.byteCnt ≤ 1

/-- The update of `fa.stuff_flag` (43_frame_assembler.md R184). -/
def State.stuffFlagNext (s : State) : Bool := s.fa.stuffFlag || s.out.stuffError

end Sys2Proof.Machine
end

