-- ==== Sys2Proof/Machine/Ops.lean ====
section
/-! DEFINITION. The named operations every arm is written with: how each component writes its registers and drives its
strobes, handing bytes to the emitter, taking the Overrun fault and leaving it, beginning a tick and committing it. -/

namespace Sys2Proof.Machine

/-- Continue with the next state, if there is one. -/
def andThen (o : Outcome) (k : State → Outcome) : Outcome :=
  match o with
  | .next s => k s
  | .fault r => .fault r
  | .refused r => .refused r

/-- A BTR arm writes `btr.state` and `btr.cnt`, records `rx_dom` (40_bit_timing_recovery.md R108) and drives its two
strobes (R100). -/
def State.driveBtr (s : State) (state : BtrState) (cnt : Nat) (boundary sample : Bool) : State :=
  { s with
    btr := { state := state, cnt := cnt, prevDom := s.inp.rxDom }
    out := { s.out with boundary := boundary, sample := sample } }

/-- A BDS arm writes `bds.*` and drives its two strobes (41_bit_destuffer.md R120). -/
def State.driveBds (s : State) (lastBit : Bool) (runLen : Nat) (bitReady stuffError : Bool) : State :=
  { s with
    bds := { lastBit := lastBit, runLen := runLen }
    out := { s.out with bitReady := bitReady, stuffError := stuffError } }

/-- A CRC arm writes `crc.reg` only (42_crc_engine.md R140). -/
def State.writeCrc (s : State) (v : Word15) : State := { s with crc := { reg := v } }

/-- EM drives its two ports (10_state.md R38): no byte, `byte_data = 0`. -/
def State.presentNothing (s : State) : State := { s with out := { s.out with byteValid := false, byteData := 0#8 } }

/-- EM drives its two ports (10_state.md R38): the byte `b`. -/
def State.presentByte (s : State) (b : Byte) : State := { s with out := { s.out with byteValid := true, byteData := b } }

/-- The sink receives `b` in this tick and it leaves `em.pend` (44_byte_emitter.md R202). -/
def State.pushByte (s : State) (b : Byte) (rest : List Byte) : State :=
  { s with em := { pend := rest }, stream := s.stream ++ [b] }

/-- `enqueue`: FA hands one or two bytes to EM (44_byte_emitter.md R204). -/
def State.enqueue (s : State) (bs : List Byte) : State := { s with em := { pend := bs } }

/-- An FA arm writes its registers; `fa.stuff_flag` follows 43_frame_assembler.md R184, whatever `r` holds there. -/
def State.writeFa (s : State) (r : Fa) : State := { s with fa := { r with stuffFlag := s.stuffFlagNext } }

/-- "clear frame buffer" on entry to `Idle` (43_frame_assembler.md R160, R163, R181). -/
def State.clearFrame (s : State) : State := { s with fa := Regs.reset.fa }

/-- One more bit of a field that is not complete: shift it in, count it (43_frame_assembler.md R167, R169, R173, R176). -/
def State.shiftFieldBit (s : State) : State := s.writeFa { s.fa with shreg := s.sh, cnt := s.fa.cnt - 1 }

/-- The last bit of a field: shift it in, go to the next phase with its counters (43_frame_assembler.md R160). -/
def State.endField (s : State) (phase : Phase) (cnt byteCnt : Nat) : State :=
  s.writeFa { s.fa with phase := phase, cnt := cnt, byteCnt := byteCnt, shreg := s.sh }

/-- The last control bit: the length byte is handed over, whatever the length code (43_frame_assembler.md R170 to R172). -/
def State.endControl (s : State) (phase : Phase) (cnt byteCnt : Nat) : State :=
  (s.endField phase cnt byteCnt).enqueue [lengthByte s.sh]

/-- FA changes no register but `fa.stuff_flag` (43_frame_assembler.md R164, R178, R182, R184). -/
def State.holdFa (s : State) : State := s.writeFa s.fa

/-- Every register to its reset value (70_reset_and_hazards.md R250). -/
def State.resetRegisters (s : State) : State := { s with toRegs := Regs.reset }

/-- Taking the block's one exception, `raise Overrun` (43_frame_assembler.md R183): `overrun` set, every other register to
its reset value, the output `overrun` 1. Nothing is saved and control goes nowhere (60_exceptions.md R228). -/
def State.raiseOverrun (s : State) : State :=
  { s with toRegs := { Regs.reset with overrun := true }, out := { s.out with overrun := true } }

/-- A halted tick: no register changes, `overrun` 1, every other output 0 (70_reset_and_hazards.md R251). -/
def State.stayHalted (s : State) : State := { s with out := { Outputs.zero with overrun := true } }

/-- The only way out of the halt, and the reset of every state (70_reset_and_hazards.md R250, 60_exceptions.md R229):
every register to its reset value, every output 0. -/
def State.resetTick (s : State) : State := { s.resetRegisters with out := .zero }

/-- The input word of the next tick: the next word of the stimulus, or a free draw (10_state.md R37, log entry 2). -/
def State.nextInput (s : State) : TickWord :=
  match s.stim with
  | w :: _ => w
  | [] => Config.freeInput s.ticks

/-- A tick begins: its inputs arrive and no strobe is raised yet (00_scope.md R2, R3). No register changes. -/
def State.beginTick (s : State) : State :=
  { s with inp := Inputs.ofWord s.nextInput, out := .zero, stim := s.stim.tail, ticks := s.ticks + 1 }

/-- The pre-tick snapshot with the strobes raised so far in this tick (00_scope.md R3). -/
def State.withWires (s : State) (o : Outputs) : State := { s with out := o }

/-- The end of a tick: from the snapshot `s` and the results of the five arms, BTR's, BDS's, CRC's, EM's and FA's, each
component's registers are taken from its own arm (00_scope.md R2, R3). `em.pend` is FA's when the emitter was empty (the
bytes enqueued, if any, 44_byte_emitter.md R201, R204), else EM's (R202, R203). When FA raised Overrun its result
overrides every register (43_frame_assembler.md R183). The ports are those the arms drove, `stuff_flag` being the pre-tick
register (log entry 9); a byte pushed in this tick is pushed in either case (R183). -/
def commit (s b d c e f : State) : State :=
  if f.overrun then
    { s with
      toRegs := f.toRegs
      out := { e.out with stuffFlag := s.fa.stuffFlag, overrun := true }
      stream := e.stream }
  else
    { s with
      btr := b.btr
      bds := d.bds
      crc := c.crc
      fa := f.fa
      em := if s.em.pend = [] then f.em else e.em
      overrun := false
      out := { e.out with stuffFlag := s.fa.stuffFlag }
      stream := e.stream }

/-- No register holds a value of 30_encoding.md R82 (d), nor exceeds its width (10_state.md §1). -/
abbrev State.Representable (s : State) : Prop :=
  s.btr.cnt < s.cfg.periodTicks ∧ s.bds.runLen ≤ 4 ∧ s.fa.cnt ≤ 63 ∧ s.fa.byteCnt ≤ 8 ∧ s.em.pend.length ≤ 2

end Sys2Proof.Machine
end

