-- ==== Sys2Proof/Machine/Bds.lean ====
section
/-! DEFINITION. BitDestuffer (format S, 41_bit_destuffer.md). -/

namespace Sys2Proof.Machine

/-- `BDS.BYPASS` (41_bit_destuffer.md R122): `bit_ready = sample`, the destuffer held reset. -/
def execBdsBypass (s : State) : Outcome := .next (s.driveBds true 0 s.out.sample false)

/-- `BDS.HOLD` (41_bit_destuffer.md R123). -/
def execBdsHold (s : State) : Outcome := .next (s.driveBds s.bds.lastBit s.bds.runLen false false)

/-- `BDS.PASS_NEW` (41_bit_destuffer.md R124). -/
def execBdsPassNew (s : State) : Outcome := .next (s.driveBds s.rxBit 0 true false)

/-- `BDS.PASS_RUN` (41_bit_destuffer.md R125). -/
def execBdsPassRun (s : State) : Outcome := .next (s.driveBds s.rxBit (s.bds.runLen + 1) true false)

/-- `BDS.DESTUFF` (41_bit_destuffer.md R126). -/
def execBdsDestuff (s : State) : Outcome := .next (s.driveBds s.rxBit 0 false false)

/-- `BDS.VIOLATION` (41_bit_destuffer.md R127). -/
def execBdsViolation (s : State) : Outcome := .next (s.driveBds s.rxBit 0 false true)

end Sys2Proof.Machine
end

