-- ==== Sys2Proof/Machine/Btr.lean ====
section
/-! DEFINITION. BitTimingRecovery (format T, 40_bit_timing_recovery.md). -/

namespace Sys2Proof.Machine

/-- `BTR.WAIT` (40_bit_timing_recovery.md R102). -/
def execBtrWait (s : State) : Outcome := .next (s.driveBtr .idle 0 false false)

/-- `BTR.START` (40_bit_timing_recovery.md R103). -/
def execBtrStart (s : State) : Outcome := .next (s.driveBtr .running 0 true false)

/-- `BTR.COUNT` (40_bit_timing_recovery.md R104). -/
def execBtrCount (s : State) : Outcome := .next (s.driveBtr s.btr.state s.nextCnt false false)

/-- `BTR.SAMPLE` (40_bit_timing_recovery.md R105). -/
def execBtrSample (s : State) : Outcome := .next (s.driveBtr s.btr.state s.nextCnt false true)

/-- `BTR.ROLL` (40_bit_timing_recovery.md R106). -/
def execBtrRoll (s : State) : Outcome := .next (s.driveBtr .running 0 true false)

/-- `BTR.STOP` (40_bit_timing_recovery.md R107). -/
def execBtrStop (s : State) : Outcome := .next (s.driveBtr .idle 0 true false)

end Sys2Proof.Machine
end

