-- ==== Sys2Proof/Machine/Crc.lean ====
section
/-! DEFINITION. CrcEngine (format C, 42_crc_engine.md). -/

namespace Sys2Proof.Machine

/-- `CRC.CLEAR` (42_crc_engine.md R142). -/
def execCrcClear (s : State) : Outcome := .next (s.writeCrc 0#15)

/-- `CRC.HOLD` (42_crc_engine.md R143). -/
def execCrcHold (s : State) : Outcome := .next (s.writeCrc s.crc.reg)

/-- `CRC.SHIFT` (42_crc_engine.md R144). -/
def execCrcShift (s : State) : Outcome := .next (s.writeCrc (crcShifted s.crc.reg))

/-- `CRC.SHIFTX` (42_crc_engine.md R145). -/
def execCrcShiftx (s : State) : Outcome := .next (s.writeCrc (crcShiftedXor s.crc.reg))

end Sys2Proof.Machine
end

