-- ==== Sys2Proof/Machine/Em.lean ====
section
/-! DEFINITION. The byte emitter (format E, 44_byte_emitter.md). -/

namespace Sys2Proof.Machine

/-- `EM.EMPTY` (44_byte_emitter.md R201). The bytes FA enqueues in this tick join in `commit`. -/
def execEmEmpty (s : State) : Outcome := .next s.presentNothing

/-- `EM.PUSH` (44_byte_emitter.md R202). Its selector needs a pending byte; with none, nothing is presented. -/
def execEmPush (s : State) : Outcome :=
  match s.em.pend with
  | [] => .next s.presentNothing
  | b :: rest => .next ((s.presentByte b).pushByte b rest)

/-- `EM.STALL` (44_byte_emitter.md R203). Its selector needs a pending byte; with none, nothing is presented. -/
def execEmStall (s : State) : Outcome :=
  match s.em.pend with
  | [] => .next s.presentNothing
  | b :: _ => .next (s.presentByte b)

end Sys2Proof.Machine
end

