-- ==== Sys2Proof/Machine/Fa.lean ====
section
/-! DEFINITION. FrameAssembler (format A, 43_frame_assembler.md). Every arm but `FA.CANCEL`, `FA.GAP_DONE` and the
`FA.OVERRUN` rows also updates `fa.stuff_flag` (R184), which `writeFa` does. -/

namespace Sys2Proof.Machine

/-- `FA.CANCEL` (43_frame_assembler.md R163). -/
def execFaCancel (s : State) : Outcome := .next s.clearFrame

/-- `FA.IDLE` (43_frame_assembler.md R164). -/
def execFaIdle (s : State) : Outcome := .next s.holdFa

/-- `FA.START` (43_frame_assembler.md R165). -/
def execFaStart (s : State) : Outcome :=
  .next (s.writeFa { s.fa with phase := .arbitrationId, cnt := 11, sofPending := true })

/-- `FA.SOF` (43_frame_assembler.md R166). -/
def execFaSof (s : State) : Outcome := .next (s.writeFa { s.fa with sofPending := false })

/-- `FA.ID_SHIFT` (43_frame_assembler.md R167). -/
def execFaIdShift (s : State) : Outcome := .next s.shiftFieldBit

/-- `FA.ID_DONE` (43_frame_assembler.md R168). -/
def execFaIdDone (s : State) : Outcome :=
  .next ((s.endField .arbitrationControl 7 s.fa.byteCnt).enqueue [idHighByte s.sh, lowByte s.sh])

/-- `FA.CTL_SHIFT` (43_frame_assembler.md R169). -/
def execFaCtlShift (s : State) : Outcome := .next s.shiftFieldBit

/-- `FA.CTL_DONE_EMPTY` (43_frame_assembler.md R170). -/
def execFaCtlDoneEmpty (s : State) : Outcome := .next (s.endControl .crc 15 s.fa.byteCnt)

/-- `FA.CTL_DONE_DATA` (43_frame_assembler.md R171). -/
def execFaCtlDoneData (s : State) : Outcome := .next (s.endControl .data 8 s.dlc)

/-- `FA.CTL_DONE_ILLEGAL` (43_frame_assembler.md R172). -/
def execFaCtlDoneIllegal (s : State) : Outcome := .next (s.endControl .idleWait s.cfg.ifgBits s.fa.byteCnt)

/-- `FA.DATA_SHIFT` (43_frame_assembler.md R173). -/
def execFaDataShift (s : State) : Outcome := .next s.shiftFieldBit

/-- `FA.DATA_BYTE` (43_frame_assembler.md R174). -/
def execFaDataByte (s : State) : Outcome :=
  .next ((s.endField s.fa.phase 8 (s.fa.byteCnt - 1)).enqueue [lowByte s.sh])

/-- `FA.DATA_LAST` (43_frame_assembler.md R175). -/
def execFaDataLast (s : State) : Outcome := .next ((s.endField .crc 15 0).enqueue [lowByte s.sh])

/-- `FA.CRC_SHIFT` (43_frame_assembler.md R176). -/
def execFaCrcShift (s : State) : Outcome := .next s.shiftFieldBit

/-- `FA.CRC_DONE` (43_frame_assembler.md R177). -/
def execFaCrcDone (s : State) : Outcome :=
  .next ((s.endField .crcCheck 0 s.fa.byteCnt).enqueue [crcHighByte s.sh, lowByte s.sh])

/-- `FA.CHECK_WAIT` (43_frame_assembler.md R178). -/
def execFaCheckWait (s : State) : Outcome := .next s.holdFa

/-- `FA.CHECK` (43_frame_assembler.md R179). -/
def execFaCheck (s : State) : Outcome :=
  .next ((s.writeFa { s.fa with phase := .idleWait, cnt := s.cfg.ifgBits }).enqueue [statusByte s.crc.reg])

/-- `FA.GAP_COUNT` (43_frame_assembler.md R180). -/
def execFaGapCount (s : State) : Outcome := .next (s.writeFa { s.fa with cnt := s.fa.cnt - 1 })

/-- `FA.GAP_DONE` (43_frame_assembler.md R181). -/
def execFaGapDone (s : State) : Outcome := .next s.clearFrame

/-- `FA.HOLD.ID` (43_frame_assembler.md R182). -/
def execFaHoldId (s : State) : Outcome := .next s.holdFa

/-- `FA.HOLD.CTL` (43_frame_assembler.md R182). -/
def execFaHoldCtl (s : State) : Outcome := .next s.holdFa

/-- `FA.HOLD.DATA` (43_frame_assembler.md R182). -/
def execFaHoldData (s : State) : Outcome := .next s.holdFa

/-- `FA.HOLD.CRC` (43_frame_assembler.md R182). -/
def execFaHoldCrc (s : State) : Outcome := .next s.holdFa

/-- `FA.HOLD.GAP` (43_frame_assembler.md R182). -/
def execFaHoldGap (s : State) : Outcome := .next s.holdFa

/-- `FA.OVERRUN.START` (43_frame_assembler.md R183). -/
def execFaOverrunStart (s : State) : Outcome := .next s.raiseOverrun

/-- `FA.OVERRUN.ID` (43_frame_assembler.md R183). -/
def execFaOverrunId (s : State) : Outcome := .next s.raiseOverrun

/-- `FA.OVERRUN.CTL` (43_frame_assembler.md R183). -/
def execFaOverrunCtl (s : State) : Outcome := .next s.raiseOverrun

/-- `FA.OVERRUN.DATA` (43_frame_assembler.md R183). -/
def execFaOverrunData (s : State) : Outcome := .next s.raiseOverrun

/-- `FA.OVERRUN.CRC` (43_frame_assembler.md R183). -/
def execFaOverrunCrc (s : State) : Outcome := .next s.raiseOverrun

/-- `FA.OVERRUN.CHECK` (43_frame_assembler.md R183). -/
def execFaOverrunCheck (s : State) : Outcome := .next s.raiseOverrun

/-- `FA.OVERRUN.GAP` (43_frame_assembler.md R183). -/
def execFaOverrunGap (s : State) : Outcome := .next s.raiseOverrun

end Sys2Proof.Machine
end

