-- ==== Sys2Proof/Machine/Sys.lean ====
section
/-! DEFINITION. The two system operations (format Y, 70_reset_and_hazards.md). -/

namespace Sys2Proof.Machine

/-- `SYS.RESET` (70_reset_and_hazards.md R250). -/
def execSysReset (s : State) : Outcome := .next s.resetTick

/-- `SYS.HALT` (70_reset_and_hazards.md R251). -/
def execSysHalt (s : State) : Outcome := .next s.stayHalted

end Sys2Proof.Machine
end

