-- ==== Sys2Proof/Machine/Dispatch.lean ====
section
/-! DEFINITION. One arm per operation: what it does to the pre-tick snapshot. -/

namespace Sys2Proof.Machine

def exec (i : Instr) (s : State) : Host.Outcome State Fault Refusal :=
  match i with
  | .sysReset => Sys2Proof.Machine.execSysReset s
  | .sysHalt => Sys2Proof.Machine.execSysHalt s
  | .btrWait => Sys2Proof.Machine.execBtrWait s
  | .btrStart => Sys2Proof.Machine.execBtrStart s
  | .btrCount => Sys2Proof.Machine.execBtrCount s
  | .btrSample => Sys2Proof.Machine.execBtrSample s
  | .btrRoll => Sys2Proof.Machine.execBtrRoll s
  | .btrStop => Sys2Proof.Machine.execBtrStop s
  | .bdsBypass => Sys2Proof.Machine.execBdsBypass s
  | .bdsHold => Sys2Proof.Machine.execBdsHold s
  | .bdsPassNew => Sys2Proof.Machine.execBdsPassNew s
  | .bdsPassRun => Sys2Proof.Machine.execBdsPassRun s
  | .bdsDestuff => Sys2Proof.Machine.execBdsDestuff s
  | .bdsViolation => Sys2Proof.Machine.execBdsViolation s
  | .crcClear => Sys2Proof.Machine.execCrcClear s
  | .crcHold => Sys2Proof.Machine.execCrcHold s
  | .crcShift => Sys2Proof.Machine.execCrcShift s
  | .crcShiftx => Sys2Proof.Machine.execCrcShiftx s
  | .emEmpty => Sys2Proof.Machine.execEmEmpty s
  | .emPush => Sys2Proof.Machine.execEmPush s
  | .emStall => Sys2Proof.Machine.execEmStall s
  | .faCancel => Sys2Proof.Machine.execFaCancel s
  | .faIdle => Sys2Proof.Machine.execFaIdle s
  | .faStart => Sys2Proof.Machine.execFaStart s
  | .faOverrunStart => Sys2Proof.Machine.execFaOverrunStart s
  | .faSof => Sys2Proof.Machine.execFaSof s
  | .faIdShift => Sys2Proof.Machine.execFaIdShift s
  | .faIdDone => Sys2Proof.Machine.execFaIdDone s
  | .faHoldId => Sys2Proof.Machine.execFaHoldId s
  | .faOverrunId => Sys2Proof.Machine.execFaOverrunId s
  | .faCtlShift => Sys2Proof.Machine.execFaCtlShift s
  | .faCtlDoneEmpty => Sys2Proof.Machine.execFaCtlDoneEmpty s
  | .faCtlDoneData => Sys2Proof.Machine.execFaCtlDoneData s
  | .faCtlDoneIllegal => Sys2Proof.Machine.execFaCtlDoneIllegal s
  | .faHoldCtl => Sys2Proof.Machine.execFaHoldCtl s
  | .faOverrunCtl => Sys2Proof.Machine.execFaOverrunCtl s
  | .faDataShift => Sys2Proof.Machine.execFaDataShift s
  | .faDataByte => Sys2Proof.Machine.execFaDataByte s
  | .faDataLast => Sys2Proof.Machine.execFaDataLast s
  | .faHoldData => Sys2Proof.Machine.execFaHoldData s
  | .faOverrunData => Sys2Proof.Machine.execFaOverrunData s
  | .faCrcShift => Sys2Proof.Machine.execFaCrcShift s
  | .faCrcDone => Sys2Proof.Machine.execFaCrcDone s
  | .faHoldCrc => Sys2Proof.Machine.execFaHoldCrc s
  | .faOverrunCrc => Sys2Proof.Machine.execFaOverrunCrc s
  | .faCheckWait => Sys2Proof.Machine.execFaCheckWait s
  | .faCheck => Sys2Proof.Machine.execFaCheck s
  | .faOverrunCheck => Sys2Proof.Machine.execFaOverrunCheck s
  | .faGapCount => Sys2Proof.Machine.execFaGapCount s
  | .faGapDone => Sys2Proof.Machine.execFaGapDone s
  | .faHoldGap => Sys2Proof.Machine.execFaHoldGap s
  | .faOverrunGap => Sys2Proof.Machine.execFaOverrunGap s

end Sys2Proof.Machine
end

