-- ==== Sys2Proof/Machine/Fetch.lean ====
section
/-! DEFINITION. What this machine has in place of an instruction fetch: the selector words a tick builds from pre-tick
state, strobes and inputs (30_encoding.md R80), the prose form of FA's selection (43_frame_assembler.md R162), and
`arrange`, which sets the registers and the input word so that the next tick selects a given operation. -/

namespace Sys2Proof.Machine

/-- Phase codes (30_encoding.md R81), most significant bit first. -/
def Phase.code : Phase → List Bool
  | .idle => [false, false, false]
  | .arbitrationId => [false, false, true]
  | .arbitrationControl => [false, true, false]
  | .data => [false, true, true]
  | .crc => [true, false, false]
  | .crcCheck => [true, false, true]
  | .idleWait => [true, true, false]

/-- The length class `cc` of a length code (30_encoding.md R80): `00` for 0, `01` for 1 to 8, `10` for 9 to 15. -/
def lengthClass (dlc : Nat) : List Bool :=
  if dlc = 0 then [false, false] else if dlc ≤ 8 then [false, true] else [true, false]

/-- The selector word of each format (30_encoding.md R80), most significant bit first. -/
def selectorWord (f : Format) (s : State) : List Bool :=
  match f with
  | .y => [s.inp.rst, s.overrun]
  | .t => [s.btr.state == .running, s.edge, s.atSetup, s.atPeriod, s.keep]
  | .s => [s.framing, s.out.sample, s.differs, s.stuffPos]
  | .c => [s.crcClear, s.crcEn, s.fb]
  | .e => [s.blocked, s.inp.sinkReady]
  | .a => [s.inp.run] ++ s.fa.phase.code ++ [s.startEdge, s.out.bitReady, s.blocked, s.fa.sofPending, s.last] ++
      lengthClass s.dlc ++ [s.lastByte]

/-- The operation a component selects in a tick. -/
def selectOp (f : Format) (s : State) : Except DecodeError Instr :=
  decode { format := f, word := selectorWord f s }

/-- FA's selection in the priority order of 43_frame_assembler.md R162. The machine selects by format A; this is the prose
form of the same table, for statements. -/
def faArmByPriority (s : State) : Instr :=
  if s.inp.run = false then .faCancel
  else match s.fa.phase with
    | .idle => if s.startEdge = false then .faIdle else if s.blocked = false then .faStart else .faOverrunStart
    | .crcCheck =>
      if s.blocked then (if s.out.bitReady then .faOverrunCheck else .faCheckWait) else .faCheck
    | .arbitrationId =>
      if s.out.bitReady = false then .faHoldId else if s.blocked then .faOverrunId
      else if s.fa.sofPending then .faSof else if s.last then .faIdDone else .faIdShift
    | .arbitrationControl =>
      if s.out.bitReady = false then .faHoldCtl else if s.blocked then .faOverrunCtl
      else if s.last = false then .faCtlShift
      else if s.dlc = 0 then .faCtlDoneEmpty else if s.dlc ≤ 8 then .faCtlDoneData else .faCtlDoneIllegal
    | .data =>
      if s.out.bitReady = false then .faHoldData else if s.blocked then .faOverrunData
      else if s.last = false then .faDataShift else if 1 < s.fa.byteCnt then .faDataByte else .faDataLast
    | .crc =>
      if s.out.bitReady = false then .faHoldCrc else if s.blocked then .faOverrunCrc
      else if s.last then .faCrcDone else .faCrcShift
    | .idleWait =>
      if s.out.bitReady = false then .faHoldGap else if s.blocked then .faOverrunGap
      else if s.last then .faGapDone else .faGapCount

/-- Put `w` where the next tick takes its input word. -/
def State.placeInput (s : State) (rst run sinkReady rxDom : Bool) : State :=
  { s with stim := Inputs.toWord { rst := rst, run := run, sinkReady := sinkReady, rxDom := rxDom } :: s.stim.tail }

/-- BTR one tick before its sample point. -/
def State.beforeSample (s : State) : State :=
  { s with btr := { s.btr with state := .running, cnt := s.cfg.setupTicks - 1 } }

/-- BTR one tick before the end of its bit cell, where it raises no `sample`. -/
def State.beforePeriod (s : State) : State :=
  { s with btr := { s.btr with state := .running, cnt := s.cfg.periodTicks - 1 } }

/-- BTR waiting, the bus recessive so far. -/
def State.waiting (s : State) : State := { s with btr := Regs.reset.btr }

/-- FA in a phase with given counters. -/
def State.inPhase (s : State) (phase : Phase) (cnt byteCnt : Nat) (sofPending : Bool) (shreg : Word15) : State :=
  { s with fa := { s.fa with phase := phase, cnt := cnt, byteCnt := byteCnt, sofPending := sofPending, shreg := shreg } }

/-- The destuffer before its next bit. -/
def State.destuffer (s : State) (lastBit : Bool) (runLen : Nat) : State :=
  { s with bds := { lastBit := lastBit, runLen := runLen } }

/-- The emitter with or without a byte waiting. -/
def State.pending (s : State) (full : Bool) : State := { s with em := { pend := if full then [0#8] else [] } }

/-- FA in the identifier's start-of-frame bit, the state after `FA.START`. -/
def State.inFrame (s : State) : State := s.inPhase .arbitrationId 11 0 true 0

/-- FA in `Idle` with a clear frame buffer. -/
def State.outOfFrame (s : State) : State := { s with fa := Regs.reset.fa }

/-- A component arm of FA in `phase`: a passed bit arrives (`ready`) or none does, the emitter empty or not (`full`). -/
def State.faBit (s : State) (phase : Phase) (cnt byteCnt : Nat) (sof ready full rxDom : Bool) (shreg : Word15) : State :=
  let s := (s.inPhase phase cnt byteCnt sof shreg).destuffer true 0
  let s := if ready then s.beforeSample else s.beforePeriod
  (s.pending full).placeInput false true (!full) rxDom

/-- The registers and the input word under which the next tick executes operation `i` (log entry 4). -/
def State.arrange (i : Instr) (s0 : State) : State :=
  let s := { s0.pending false with overrun := false }
  match i with
  | .sysReset => s0.placeInput true true true false
  | .sysHalt => { s0 with overrun := true }.placeInput false true true false
  | .btrWait => s.waiting.placeInput false true true false
  | .btrStart => s.waiting.placeInput false true true true
  | .btrCount =>
    ({ s.inFrame with btr := { s.btr with state := .running, cnt := if s.cfg.setupTicks = 1 then 1 else 0 } }).placeInput
      false true true false
  | .btrSample => s.inFrame.beforeSample.placeInput false true true false
  | .btrRoll => s.inFrame.beforePeriod.placeInput false true true false
  | .btrStop => s.outOfFrame.beforePeriod.placeInput false true true false
  | .bdsBypass => s.outOfFrame.waiting.placeInput false true true false
  | .bdsHold => s.inFrame.beforePeriod.placeInput false true true false
  | .bdsPassNew => ((s.inFrame.beforeSample).destuffer true 0).placeInput false true true true
  | .bdsPassRun => ((s.inFrame.beforeSample).destuffer false 0).placeInput false true true true
  | .bdsDestuff => ((s.inFrame.beforeSample).destuffer true 4).placeInput false true true true
  | .bdsViolation => ((s.inFrame.beforeSample).destuffer false 4).placeInput false true true true
  | .crcClear => s.outOfFrame.waiting.placeInput false true true false
  | .crcHold => s.inFrame.beforePeriod.placeInput false true true false
  | .crcShift => (({ s.inFrame with crc := { reg := 0#15 } }).beforeSample).placeInput false true true true
  | .crcShiftx => (({ s.inFrame with crc := { reg := 0#15 } }).beforeSample).placeInput false true true false
  | .emEmpty => s.outOfFrame.waiting.placeInput false true true false
  | .emPush => (s.outOfFrame.waiting.pending true).placeInput false true true false
  | .emStall => (s.outOfFrame.waiting.pending true).placeInput false true false false
  | .faCancel => s.placeInput false false true false
  | .faIdle => s.outOfFrame.waiting.placeInput false true true false
  | .faStart => s.outOfFrame.waiting.placeInput false true true true
  | .faOverrunStart => (s.outOfFrame.waiting.pending true).placeInput false true false true
  | .faSof => s.faBit .arbitrationId 11 0 true true false true 0
  | .faIdShift => s.faBit .arbitrationId 11 0 false true false true 0
  | .faIdDone => s.faBit .arbitrationId 1 0 false true false true 0
  | .faHoldId => s.faBit .arbitrationId 11 0 false false false true 0
  | .faOverrunId => s.faBit .arbitrationId 11 0 false true true true 0
  | .faCtlShift => s.faBit .arbitrationControl 7 0 false true false true 0
  | .faCtlDoneEmpty => s.faBit .arbitrationControl 1 0 false true false true 0
  | .faCtlDoneData => s.faBit .arbitrationControl 1 0 false true false true 1
  | .faCtlDoneIllegal => s.faBit .arbitrationControl 1 0 false true false true 6
  | .faHoldCtl => s.faBit .arbitrationControl 7 0 false false false true 0
  | .faOverrunCtl => s.faBit .arbitrationControl 7 0 false true true true 0
  | .faDataShift => s.faBit .data 8 1 false true false true 0
  | .faDataByte => s.faBit .data 1 2 false true false true 0
  | .faDataLast => s.faBit .data 1 1 false true false true 0
  | .faHoldData => s.faBit .data 8 1 false false false true 0
  | .faOverrunData => s.faBit .data 8 1 false true true true 0
  | .faCrcShift => s.faBit .crc 15 0 false true false true 0
  | .faCrcDone => s.faBit .crc 1 0 false true false true 0
  | .faHoldCrc => s.faBit .crc 15 0 false false false true 0
  | .faOverrunCrc => s.faBit .crc 15 0 false true true true 0
  | .faCheckWait => s.faBit .crcCheck 0 0 false false true true 0
  | .faCheck => s.faBit .crcCheck 0 0 false false false true 0
  | .faOverrunCheck => s.faBit .crcCheck 0 0 false true true true 0
  | .faGapCount => s.faBit .idleWait 2 0 false true false true 0
  | .faGapDone => s.faBit .idleWait 1 0 false true false true 0
  | .faHoldGap => s.faBit .idleWait 2 0 false false false true 0
  | .faOverrunGap => s.faBit .idleWait 2 0 false true true true 0

end Sys2Proof.Machine
end

