-- ==== Sys2Proof/Machine/Tick.lean ====
section
/-! DEFINITION. One tick: selecting the operations and executing them in two phases, every arm on the same pre-tick
snapshot, then one commit (00_scope.md R2, R3; 30_encoding.md §3). -/

namespace Sys2Proof.Machine

/-- The strobes as an arm leaves them. -/
def wiresAfter (i : Instr) (s : State) : Outputs :=
  match exec i s with
  | .next t => t.out
  | .fault _ => s.out
  | .refused _ => s.out

/-- The operations of a tick that has begun (30_encoding.md §3): format Y first; if no system row matches, BTR, then BDS
with BTR's strobes, then CRC, EM and FA with both components' strobes (00_scope.md R3). -/
def selectTick (s : State) : Except DecodeError Bundle :=
  match selectOp .y s with
  | .ok y => .ok (.system y)
  | .error _ =>
    match selectOp .t s with
    | .error r => .error r
    | .ok t =>
      let s1 := s.withWires (wiresAfter t s)
      match selectOp .s s1 with
      | .error r => .error r
      | .ok d =>
        let s2 := s1.withWires (wiresAfter d s1)
        match selectOp .c s2, selectOp .e s2, selectOp .a s2 with
        | .ok c, .ok e, .ok a => .ok (.arms t d c e a)
        | .error r, _, _ => .error r
        | _, .error r, _ => .error r
        | _, _, .error r => .error r

/-- Executing a tick's operations: a system operation alone, or the five arms on the pre-tick snapshot `s` with the
strobes as their only link, then `commit`. -/
def runBundle (s : State) : Bundle → Outcome
  | .system y => exec y s
  | .arms t d c e a =>
    andThen (exec t s) fun b' =>
    andThen (exec d (s.withWires b'.out)) fun d' =>
    andThen (exec c (s.withWires d'.out)) fun c' =>
    andThen (exec e (s.withWires d'.out)) fun e' =>
    andThen (exec a (s.withWires d'.out)) fun f' =>
    .next (commit s b' d' c' e' f')

/-- A tick that has begun. A system operation executes whatever the registers hold (70_reset_and_hazards.md R250); the
component arms refuse a register value that 30_encoding.md R82 (d) gives no meaning (log entry 8). -/
def tick (s : State) : Outcome :=
  match selectTick s with
  | .error _ => .refused .unreachableSelector
  | .ok (.system y) => runBundle s (.system y)
  | .ok (.arms t d c e a) =>
    if s.Representable then runBundle s (.arms t d c e a) else .refused .unreachableEncoding

end Sys2Proof.Machine
end

