-- ==== Sys2Proof/Machine/Step.lean ====
section
/-! DEFINITION. The step of the machine, one tick (70_reset_and_hazards.md R264), and where a table word is placed for it. -/

namespace Sys2Proof.Machine

/-- One tick. An illegal configuration is refused (00_scope.md R7, R9). -/
def step (s : State) : Host.Outcome State Fault Refusal :=
  if s.cfg.Legal then tick s.beginTick else .refused .illegalConfiguration

/-- The state in which the next step runs the operation of a table word: this block selects its operations from its
registers and inputs, so those are set (log entry 4). A word that decodes to nothing changes nothing. -/
def State.withFetchWord (s : State) (nbits w : Nat) : State :=
  match decodeTableWord nbits w with
  | some i => s.arrange i
  | none => s

end Sys2Proof.Machine
end

