-- ==== Sys2Proof/Machine/Record.lean ====
section
/-! DEFINITION. The record a consumer of the byte stream reads (30_encoding.md R73, R79, R83). No step uses it: the block
writes a record byte by byte as its fields complete; this is the layout its bytes are compared with. -/

namespace Sys2Proof.Machine

/-- One record: of a frame with a legal length code (30_encoding.md R73), or cut after an illegal one (R79). -/
inductive Record where
  | full (ident : BitVec 11) (data : List Byte) (crcField : Word15) (passed : Bool)
  | truncated (ident : BitVec 11) (dlc : BitVec 4)
  deriving DecidableEq, Repr

/-- The records the block can emit: at most 8 data bytes; cut only when the length code is 9 to 15. -/
abbrev Record.WellFormed : Record → Prop
  | .full _ data _ _ => data.length ≤ 8
  | .truncated _ dlc => 9 ≤ dlc.toNat

/-- The identifier field: big-endian, 16 bits, only the low 11 meaningful (30_encoding.md R73). -/
def identBytes (ident : BitVec 11) : List Byte := [(ident.extractLsb' 8 3).setWidth 8, ident.extractLsb' 0 8]

/-- The CRC field: big-endian, 16 bits, only the low 15 meaningful (30_encoding.md R73). -/
def crcBytes (crcField : Word15) : List Byte := [(crcField.extractLsb' 8 7).setWidth 8, crcField.extractLsb' 0 8]

/-- The bytes of a record, in push order (30_encoding.md R73, R79; 20_memory.md R56). -/
def Record.bytes : Record → List Byte
  | .full ident data crcField passed =>
    identBytes ident ++ [BitVec.ofNat 8 data.length] ++ data ++ crcBytes crcField ++ [if passed then 1#8 else 0#8]
  | .truncated ident dlc => identBytes ident ++ [dlc.setWidth 8]

/-- The length of a record, from its third byte: 6 + n for n from 0 to 8, and 3 for 9 to 15 (30_encoding.md R83).
DESIGN CHOICE (log entry 17): R83 gives no length for a third byte of 0x10 to 0xFF, which this hardware never writes (R74,
R82; 93_implementation_defined.md I4); the whole byte is read, and such a record counts as truncated, 3 bytes. -/
def recordLength (third : Byte) : Nat := if 8 < third.toNat then 3 else 6 + third.toNat

/-- Read one record off the front of a stream (30_encoding.md R73, R79, R83); `none` when the stream ends inside it.
DESIGN CHOICE (log entry 17): a third byte of 0x10 to 0xFF, for which R83 gives no length, is read as that of a truncated
record whose length code is its low four bits. -/
def takeRecord : List Byte → Option (Record × List Byte)
  | hi :: lo :: third :: rest =>
    let ident : BitVec 11 := (hi ++ lo).setWidth 11
    if 8 < third.toNat then some (.truncated ident (third.setWidth 4), rest)
    else
      match rest.drop third.toNat with
      | chi :: clo :: st :: rest' =>
        some (.full ident (rest.take third.toNat) ((chi ++ clo).setWidth 15) (st.getLsbD 0), rest')
      | _ => none
  | _ => none

end Sys2Proof.Machine
end

