-- ==== Sys2Proof/Machine/Stimulus.lean ====
section
/-! DEFINITION. The stimulus notation (30_encoding.md R84, R85): how the words a run is fed are written. No step uses it. -/

namespace Sys2Proof.Machine

/-- `STUFF` (30_encoding.md R85) inside a run of `run` bits of value `v` (`run = 0`: nothing yet). -/
def stuffFrom (v : Bool) (run : Nat) : List Bool → List Bool
  | [] => []
  | b :: bs =>
    let run' := if run ≠ 0 ∧ b = v then run + 1 else 1
    if run' = 5 then b :: (!b) :: stuffFrom (!b) 1 bs else b :: stuffFrom b run' bs

/-- `STUFF(bits)` (30_encoding.md R85): the complement bit after every five identical bits. -/
def stuff (bits : List Bool) : List Bool := stuffFrom false 0 bits

/-- `w*n` (30_encoding.md R84). -/
def repeatWord (w : TickWord) (n : Nat) : List TickWord := List.replicate n w

/-- `IDLE n` (30_encoding.md R84). -/
def idleTicks (n : Nat) : List TickWord := repeatWord 6#4 n

/-- `RESET` (30_encoding.md R84). -/
def resetWords : List TickWord := repeatWord 0xE#4 1

/-- `BIT b` (30_encoding.md R84). -/
def bitTicks (c : Config) (b : Bool) : List TickWord := repeatWord (if b then 6#4 else 7#4) c.periodTicks

/-- `BITS b1 b2 ...` (30_encoding.md R84). -/
def bitsTicks (c : Config) (bs : List Bool) : List TickWord := bs.flatMap (bitTicks c)

/-- The bits of a frame from the start bit on, before stuffing (30_encoding.md R84 `FRAME`, R71). -/
def frameBits (ident dlc : Nat) (data : List Byte) (crcField : Nat) : List Bool :=
  false :: bitsMsbFirst 11 ident ++ [false, false, false] ++ bitsMsbFirst 4 dlc ++
    data.flatMap (fun d => bitsMsbFirst 8 d.toNat) ++ bitsMsbFirst 15 crcField

/-- `FRAME id dlc [d0 ...] crc` (30_encoding.md R84). -/
def frameTicks (c : Config) (ident dlc : Nat) (data : List Byte) (crcField : Nat) : List TickWord :=
  bitsTicks c (stuff (frameBits ident dlc data crcField))

/-- `TAIL` (30_encoding.md R84): the 13 bits after the CRC field. -/
def tailTicks (c : Config) : List TickWord :=
  bitsTicks c [true, false, true, true, true, true, true, true, true, true, true, true, true]

/-- The suffix `@run=0` (30_encoding.md R84). -/
def withRunLow (ws : List TickWord) : List TickWord := ws.map (fun w => w &&& 0b1011#4)

/-- The suffix `@sink=0` (30_encoding.md R84). -/
def withSinkLow (ws : List TickWord) : List TickWord := ws.map (fun w => w &&& 0b1101#4)

end Sys2Proof.Machine
end

