-- ==== Sys2Proof/Safety.lean ====
section
/-! DEFINITION. The terms claims use: when a tick executes the component arms, the invariant of 10_state.md R43, feeding
bits to one component, and how far a frame is from its end. -/

namespace Sys2Proof.Machine

/-- The next tick executes the five component arms: no reset arrives and the block is not halted
(60_exceptions.md R227). -/
abbrev State.Live (s : State) : Prop :=
  s.cfg.Legal ∧ s.Representable ∧ s.overrun = false ∧ s.beginTick.inp.rst = false

/-- 10_state.md R43 (a) to (f), the part of it about phases and counters. -/
abbrev State.Coherent (s : State) : Prop :=
  (s.btr.state = .idle → s.btr.cnt = 0) ∧
  (s.btr.state = .idle → s.fa.phase = .idle) ∧
  (s.fa.phase = .idle → s.fa = Regs.reset.fa) ∧
  (s.fa.phase ≠ .data → s.fa.byteCnt = 0) ∧
  (s.fa.phase = .data → 1 ≤ s.fa.byteCnt ∧ s.fa.byteCnt ≤ 8 ∧ 1 ≤ s.fa.cnt ∧ s.fa.cnt ≤ 8) ∧
  (s.fa.phase = .arbitrationId ∨ s.fa.phase = .arbitrationControl ∨ s.fa.phase = .crc ∨ s.fa.phase = .idleWait →
    1 ≤ s.fa.cnt) ∧
  (s.fa.phase = .crcCheck → s.fa.cnt = 0) ∧
  (s.fa.sofPending = true → s.fa.phase = .arbitrationId ∧ s.fa.cnt = 11)

/-- The invariant of the registers: 10_state.md R43 with the bounds of §1, and, halted, every other register at its reset
value (70_reset_and_hazards.md R251). -/
abbrev State.Inv (s : State) : Prop :=
  s.Representable ∧ s.Coherent ∧ (s.overrun = true → s.toRegs = { Regs.reset with overrun := true })

/-- One raw bit reaches a component inside a frame: the line carries it and BTR raises `sample` in this tick. -/
def State.withRawBit (s : State) (b : Bool) : State :=
  { s with inp := { s.inp with rxDom := !b }, out := { Outputs.zero with sample := true } }

/-- Execute the one operation a component selects. -/
def runComponent (f : Format) (s : State) : Outcome :=
  match selectOp f s with
  | .ok i => exec i s
  | .error _ => .refused .unreachableSelector

/-- Feed raw bits to BDS alone, one per `sample`: the bits it passes on as `bit_ready`, the number of `stuff_error`
strobes, and the registers it ends with; `none` if an operation does not complete. -/
def feedDestuffer (s : State) : List Bool → Option (List Bool × Nat × Bds)
  | [] => some ([], 0, s.bds)
  | b :: bs =>
    match runComponent .s (s.withRawBit b) with
    | .next t =>
      match feedDestuffer t bs with
      | some (out, errs, d) =>
        some ((if t.out.bitReady then b :: out else out), (if t.out.stuffError then errs + 1 else errs), d)
      | none => none
    | .fault _ => none
    | .refused _ => none

/-- Feed raw bits to CRC alone, one per `sample`; the register it ends with. -/
def feedCrc (s : State) : List Bool → Option Word15
  | [] => some s.crc.reg
  | b :: bs =>
    match runComponent .c (s.withRawBit b) with
    | .next t => feedCrc t bs
    | .fault _ => none
    | .refused _ => none

/-- A de-stuffed bit reaches FA: `bit_ready` is raised, the host lets the block run, the emitter has been drained. -/
def State.withPassedBit (s : State) (b : Bool) : State :=
  { s with
    inp := { s.inp with rst := false, run := true, rxDom := !b }
    out := { Outputs.zero with sample := true, bitReady := true }
    em := { pend := [] } }

/-- Feed de-stuffed bits to FA alone, one per `bit_ready`, the emitter drained in between: the bytes it hands over, and the
state it ends in; `none` if an operation does not complete. -/
def feedAssembler (s : State) : List Bool → Option (List Byte × State)
  | [] => some ([], s)
  | b :: bs =>
    match runComponent .a (s.withPassedBit b) with
    | .next t =>
      match feedAssembler t bs with
      | some (bytes, u) => some (t.em.pend ++ bytes, u)
      | none => none
    | .fault _ => none
    | .refused _ => none

/-- The bytes FA's own arm hands over in a tick that begins in `s`, `f` being the state that arm alone answers
(44_byte_emitter.md R204): none while the emitter is not empty. -/
def enqueued (s f : State) : List Byte := if s.em.pend = [] then f.em.pend else []

/-- `fa.cnt` never exceeds what it is loaded with on entry to a phase: 11, 7, 15 or `IFG_BITS` (10_state.md R27). The 8 of
`data` is in `Coherent`. -/
abbrev State.FieldBounds (s : State) : Prop :=
  (s.fa.phase = .arbitrationId → s.fa.cnt ≤ 11) ∧
  (s.fa.phase = .arbitrationControl → s.fa.cnt ≤ 7) ∧
  (s.fa.phase = .crc → s.fa.cnt ≤ 15) ∧
  (s.fa.phase = .idleWait → s.fa.cnt ≤ s.cfg.ifgBits)

/-- An upper bound on the `bit_ready` strobes the frame in progress still consumes before `Idle`
(43_frame_assembler.md R186; 60_exceptions.md R231). -/
def bitsToIdle (s : State) : Nat :=
  let gap := s.cfg.ifgBits
  match s.fa.phase with
  | .idle => 0
  | .arbitrationId => s.fa.sofPending.toNat + s.fa.cnt + 7 + 64 + 15 + gap
  | .arbitrationControl => s.fa.cnt + 64 + 15 + gap
  | .data => s.fa.cnt + 8 * (s.fa.byteCnt - 1) + 15 + gap
  | .crc => s.fa.cnt + gap
  | .crcCheck => gap
  | .idleWait => s.fa.cnt

end Sys2Proof.Machine
end

