-- ==== Sys2Proof/Certificates/Slice0/Obligations.lean ====
section
/-! DEFINITION. The statements, for the provers. Component statements speak of a tick that has begun (`beginTick`): the
registers are the pre-tick snapshot, `inp` the inputs of the tick, `out` the strobes raised so far in it. -/

open Sys2Proof Sys2Proof.Machine

/-- A tick with rst = 1 sets every register to its stated reset value and every output to 0 (R250). -/
def Obligations.ResetTickRestoresEveryRegister : Prop :=
  ∀ s : State, s.cfg.Legal → s.beginTick.inp.rst = true →
    ∃ t, step s = .next t ∧ selectTick s.beginTick = .ok (.system .sysReset) ∧ exec .sysReset s.beginTick = .next t ∧
      t.toRegs =
      { btr := { state := .idle, cnt := 0, prevDom := false }
        bds := { lastBit := true, runLen := 0 }
        crc := { reg := 0#15 }
        fa := { phase := .idle, cnt := 0, byteCnt := 0, shreg := 0#15, sofPending := false, stuffFlag := false }
        em := { pend := [] }
        overrun := false } ∧
      t.out = { byteValid := false, byteData := 0#8, stuffError := false, stuffFlag := false, overrun := false,
                boundary := false, sample := false, bitReady := false } ∧
      t.stream = s.stream ∧ t.cfg = s.cfg

/-- A halted tick (overrun = 1, rst = 0) changes no register, pushes nothing and drives only the output overrun
(R251).
Model's own: the halt as next states, where R251 says "A model represents this state as its fault outcome" (log
entry 7). -/
def Obligations.HaltedTickChangesNothing : Prop :=
  ∀ s : State, s.cfg.Legal → s.beginTick.inp.rst = false → s.overrun = true →
    ∃ t, step s = .next t ∧ selectTick s.beginTick = .ok (.system .sysHalt) ∧ exec .sysHalt s.beginTick = .next t ∧
      t.toRegs = s.toRegs ∧
      t.out = { byteValid := false, byteData := 0#8, stuffError := false, stuffFlag := false, overrun := true,
                boundary := false, sample := false, bitReady := false } ∧
      t.stream = s.stream ∧ t.cfg = s.cfg

/-- The state at the first tick holds the reset value of every register (R252). -/
def Obligations.PowerOnStateHoldsTheResetValues : Prop :=
  ∀ c : Config,
    (State.resetWith c).toRegs =
      { btr := { state := .idle, cnt := 0, prevDom := false }
        bds := { lastBit := true, runLen := 0 }
        crc := { reg := 0#15 }
        fa := { phase := .idle, cnt := 0, byteCnt := 0, shreg := 0#15, sofPending := false, stuffFlag := false }
        em := { pend := [] }
        overrun := false } ∧
    State.reset.toRegs = (State.resetWith c).toRegs

/-- BTR while Idle: BTR.WAIT without an edge, BTR.START on a recessive-to-dominant edge (R102, R103). -/
def Obligations.BtrIdleOperations : Prop :=
  ∀ s : State, s.btr.state = .idle →
    ((s.btr.prevDom = true ∨ s.inp.rxDom = false) →
      selectOp .t s = .ok .btrWait ∧
      exec .btrWait s = .next { s with
        btr := { state := .idle, cnt := 0, prevDom := s.inp.rxDom }
        out := { s.out with boundary := false, sample := false } }) ∧
    (s.btr.prevDom = false → s.inp.rxDom = true →
      selectOp .t s = .ok .btrStart ∧
      exec .btrStart s = .next { s with
        btr := { state := .running, cnt := 0, prevDom := s.inp.rxDom }
        out := { s.out with boundary := true, sample := false } })

/-- BTR inside a bit cell: BTR.COUNT advances the counter, BTR.SAMPLE raises sample when n = SETUP_TICKS (R104,
R105). -/
def Obligations.BtrCountAndSample : Prop :=
  ∀ s : State, s.btr.state = .running → s.btr.cnt + 1 < s.cfg.periodTicks →
    (s.btr.cnt + 1 ≠ s.cfg.setupTicks →
      selectOp .t s = .ok .btrCount ∧
      exec .btrCount s = .next { s with
        btr := { state := .running, cnt := s.btr.cnt + 1, prevDom := s.inp.rxDom }
        out := { s.out with boundary := false, sample := false } }) ∧
    (s.btr.cnt + 1 = s.cfg.setupTicks →
      selectOp .t s = .ok .btrSample ∧
      exec .btrSample s = .next { s with
        btr := { state := .running, cnt := s.btr.cnt + 1, prevDom := s.inp.rxDom }
        out := { s.out with boundary := false, sample := true } })

/-- BTR at the end of a bit cell: BTR.ROLL when keep = 1, BTR.STOP when keep = 0 (R106, R107). -/
def Obligations.BtrEndOfCell : Prop :=
  ∀ s : State, s.cfg.Legal → s.btr.state = .running → s.cfg.periodTicks ≤ s.btr.cnt + 1 →
    ((s.inp.run = true ∧ s.fa.phase ≠ .idle) →
      selectOp .t s = .ok .btrRoll ∧
      exec .btrRoll s = .next { s with
        btr := { state := .running, cnt := 0, prevDom := s.inp.rxDom }
        out := { s.out with boundary := true, sample := false } }) ∧
    ((s.inp.run = false ∨ s.fa.phase = .idle) →
      selectOp .t s = .ok .btrStop ∧
      exec .btrStop s = .next { s with
        btr := { state := .idle, cnt := 0, prevDom := s.inp.rxDom }
        out := { s.out with boundary := true, sample := false } })

/-- Whichever of the six BTR operations executes, btr.prev_dom takes rx_dom (R108). -/
def Obligations.EveryBtrOperationRecordsTheLine : Prop :=
  ∀ (i : Instr) (s : State), i.format = .t →
    ∃ t, exec i s = .next t ∧ t.btr.prevDom = s.inp.rxDom ∧
      t.bds = s.bds ∧ t.crc = s.crc ∧ t.fa = s.fa ∧ t.em = s.em ∧ t.overrun = s.overrun ∧ t.stream = s.stream

/-- BDS outside the framing phases passes every sample and is held reset; inside them without a sample it holds
(R122, R123). -/
def Obligations.BdsBypassAndHold : Prop :=
  ∀ s : State,
    ((s.fa.phase = .idle ∨ s.fa.phase = .crcCheck ∨ s.fa.phase = .idleWait) →
      selectOp .s s = .ok .bdsBypass ∧
      exec .bdsBypass s = .next { s with
        bds := { lastBit := true, runLen := 0 }
        out := { s.out with bitReady := s.out.sample, stuffError := false } }) ∧
    ((s.fa.phase = .arbitrationId ∨ s.fa.phase = .arbitrationControl ∨ s.fa.phase = .data ∨ s.fa.phase = .crc) →
      s.out.sample = false →
      selectOp .s s = .ok .bdsHold ∧
      exec .bdsHold s = .next { s with out := { s.out with bitReady := false, stuffError := false } })

/-- BDS with a sample and no stuff position: a differing bit starts a run, an equal bit lengthens it, both pass
(R124, R125). -/
def Obligations.BdsPassesBitsOffAStuffPosition : Prop :=
  ∀ s : State, (s.fa.phase = .arbitrationId ∨ s.fa.phase = .arbitrationControl ∨ s.fa.phase = .data ∨ s.fa.phase = .crc) →
    s.out.sample = true → s.bds.runLen ≠ 4 →
    ((!s.inp.rxDom) ≠ s.bds.lastBit →
      selectOp .s s = .ok .bdsPassNew ∧
      exec .bdsPassNew s = .next { s with
        bds := { lastBit := !s.inp.rxDom, runLen := 0 }
        out := { s.out with bitReady := true, stuffError := false } }) ∧
    ((!s.inp.rxDom) = s.bds.lastBit →
      selectOp .s s = .ok .bdsPassRun ∧
      exec .bdsPassRun s = .next { s with
        bds := { lastBit := !s.inp.rxDom, runLen := s.bds.runLen + 1 }
        out := { s.out with bitReady := true, stuffError := false } })

/-- BDS at a stuff position withholds the bit: a differing bit is a stuff bit, an equal one a violation (R126). -/
def Obligations.BdsWithholdsTheBitAtAStuffPosition : Prop :=
  ∀ s : State, (s.fa.phase = .arbitrationId ∨ s.fa.phase = .arbitrationControl ∨ s.fa.phase = .data ∨ s.fa.phase = .crc) →
    s.out.sample = true → s.bds.runLen = 4 →
    ((!s.inp.rxDom) ≠ s.bds.lastBit →
      selectOp .s s = .ok .bdsDestuff ∧
      exec .bdsDestuff s = .next { s with
        bds := { lastBit := !s.inp.rxDom, runLen := 0 }
        out := { s.out with bitReady := false, stuffError := false } }) ∧
    ((!s.inp.rxDom) = s.bds.lastBit →
      selectOp .s s = .ok .bdsViolation ∧
      exec .bdsViolation s = .next { s with
        bds := { lastBit := !s.inp.rxDom, runLen := 0 }
        out := { s.out with bitReady := false, stuffError := true } })

/-- CRC is cleared while the assembler is Idle and holds without a framing sample (R142, R143). -/
def Obligations.CrcClearAndHold : Prop :=
  ∀ s : State,
    (s.fa.phase = .idle →
      selectOp .c s = .ok .crcClear ∧ exec .crcClear s = .next { s with crc := { reg := 0#15 } }) ∧
    ((s.fa.phase = .crcCheck ∨ s.fa.phase = .idleWait ∨ s.fa.phase ≠ .idle ∧ s.out.sample = false) →
      selectOp .c s = .ok .crcHold ∧ exec .crcHold s = .next s)

/-- CRC on a framing sample: shift left, and XOR 0x4599 when the bit differs from the bit shifted out (R144, R145). -/
def Obligations.CrcAccumulatesEverySampledBit : Prop :=
  ∀ s : State, (s.fa.phase = .arbitrationId ∨ s.fa.phase = .arbitrationControl ∨ s.fa.phase = .data ∨ s.fa.phase = .crc) →
    s.out.sample = true →
    ((!s.inp.rxDom) = s.crc.reg.getLsbD 14 →
      selectOp .c s = .ok .crcShift ∧ exec .crcShift s = .next { s with crc := { reg := s.crc.reg <<< 1 } }) ∧
    ((!s.inp.rxDom) ≠ s.crc.reg.getLsbD 14 →
      selectOp .c s = .ok .crcShiftx ∧
      exec .crcShiftx s = .next { s with crc := { reg := (s.crc.reg <<< 1) ^^^ 0x4599#15 } })

/-- The emitter: nothing to push, a byte transferred, a byte stalled (R202, R203). -/
def Obligations.EmitterOperations : Prop :=
  ∀ s : State,
    (s.em.pend = [] →
      selectOp .e s = .ok .emEmpty ∧
      exec .emEmpty s = .next { s with out := { s.out with byteValid := false, byteData := 0#8 } }) ∧
    (∀ b rest, s.em.pend = b :: rest → s.inp.sinkReady = true →
      selectOp .e s = .ok .emPush ∧
      exec .emPush s = .next { s with
        em := { pend := rest }
        stream := s.stream ++ [b]
        out := { s.out with byteValid := true, byteData := b } }) ∧
    (∀ b rest, s.em.pend = b :: rest → s.inp.sinkReady = false →
      selectOp .e s = .ok .emStall ∧
      exec .emStall s = .next { s with out := { s.out with byteValid := true, byteData := b } })

/-- FA.CANCEL and FA.GAP_DONE return FA to Idle with a clear frame buffer (R163, R181, R160). -/
def Obligations.CancelAndGapDoneClearTheFrame : Prop :=
  ∀ s : State,
    (s.inp.run = false → selectOp .a s = .ok .faCancel) ∧
    (s.inp.run = true → s.fa.phase = .idleWait → s.out.bitReady = true → s.em.pend = [] → s.fa.cnt ≤ 1 →
      selectOp .a s = .ok .faGapDone) ∧
    exec .faCancel s = .next { s with fa := { phase := .idle, cnt := 0, byteCnt := 0, shreg := 0#15, sofPending := false, stuffFlag := false } } ∧
    exec .faGapDone s = .next { s with fa := { phase := .idle, cnt := 0, byteCnt := 0, shreg := 0#15, sofPending := false, stuffFlag := false } }

/-- FA.IDLE, FA.CHECK_WAIT and the five FA.HOLD operations change no register but the stuff flag (R164, R178, R182,
R184). -/
def Obligations.FaHoldsWithoutABit : Prop :=
  ∀ s : State,
    (s.inp.run = true →
      (s.fa.phase = .idle → s.startEdge = false → selectOp .a s = .ok .faIdle) ∧
      (s.fa.phase = .crcCheck → s.em.pend ≠ [] → s.out.bitReady = false → selectOp .a s = .ok .faCheckWait) ∧
      (s.fa.phase = .arbitrationId → s.out.bitReady = false → selectOp .a s = .ok .faHoldId) ∧
      (s.fa.phase = .arbitrationControl → s.out.bitReady = false → selectOp .a s = .ok .faHoldCtl) ∧
      (s.fa.phase = .data → s.out.bitReady = false → selectOp .a s = .ok .faHoldData) ∧
      (s.fa.phase = .crc → s.out.bitReady = false → selectOp .a s = .ok .faHoldCrc) ∧
      (s.fa.phase = .idleWait → s.out.bitReady = false → selectOp .a s = .ok .faHoldGap)) ∧
    (∀ i ∈ [Instr.faIdle, .faCheckWait, .faHoldId, .faHoldCtl, .faHoldData, .faHoldCrc, .faHoldGap],
      exec i s = .next { s with fa := { s.fa with stuffFlag := s.fa.stuffFlag || s.out.stuffError } })

/-- FA.START on a start edge enters ArbitrationId; FA.SOF discards the start-of-frame bit (R165, R166). -/
def Obligations.FaStartAndStartOfFrame : Prop :=
  ∀ s : State,
    (s.inp.run = true → s.em.pend = [] →
      (s.fa.phase = .idle → s.startEdge = true → selectOp .a s = .ok .faStart) ∧
      (s.fa.phase = .arbitrationId → s.out.bitReady = true → s.fa.sofPending = true → selectOp .a s = .ok .faSof)) ∧
    exec .faStart s = .next { s with fa :=
      { s.fa with phase := .arbitrationId, cnt := 11, sofPending := true, stuffFlag := s.fa.stuffFlag || s.out.stuffError } } ∧
    exec .faSof s = .next { s with fa := { s.fa with sofPending := false, stuffFlag := s.fa.stuffFlag || s.out.stuffError } }

/-- A bit that is not the last: shifted into fa.shreg and counted in each of the four fields, only counted in the
gap (R167, R169, R173, R176, R180). -/
def Obligations.FaShiftsAFieldBitAndCountsAGapBit : Prop :=
  ∀ s : State,
    (s.inp.run = true → s.out.bitReady = true → s.em.pend = [] → 1 < s.fa.cnt →
      (s.fa.phase = .arbitrationId → s.fa.sofPending = false → selectOp .a s = .ok .faIdShift) ∧
      (s.fa.phase = .arbitrationControl → selectOp .a s = .ok .faCtlShift) ∧
      (s.fa.phase = .data → selectOp .a s = .ok .faDataShift) ∧
      (s.fa.phase = .crc → selectOp .a s = .ok .faCrcShift) ∧
      (s.fa.phase = .idleWait → selectOp .a s = .ok .faGapCount)) ∧
    (∀ i ∈ [Instr.faIdShift, .faCtlShift, .faDataShift, .faCrcShift],
      exec i s = .next { s with fa := { s.fa with
        shreg := (s.fa.shreg <<< 1) ||| (BitVec.ofBool (!s.inp.rxDom)).setWidth 15
        cnt := s.fa.cnt - 1
        stuffFlag := s.fa.stuffFlag || s.out.stuffError } }) ∧
    exec .faGapCount s = .next { s with fa := { s.fa with cnt := s.fa.cnt - 1, stuffFlag := s.fa.stuffFlag || s.out.stuffError } }

/-- FA.ID_DONE enqueues the two identifier bytes, high first, and enters ArbitrationControl (R168). -/
def Obligations.FaIdentifierDone : Prop :=
  ∀ s : State,
    (s.inp.run = true → s.fa.phase = .arbitrationId → s.fa.sofPending = false → s.out.bitReady = true →
      s.em.pend = [] → s.fa.cnt ≤ 1 → selectOp .a s = .ok .faIdDone) ∧
    exec .faIdDone s = .next { s with
      fa := { s.fa with phase := .arbitrationControl, cnt := 7, shreg := s.sh, stuffFlag := s.fa.stuffFlag || s.out.stuffError }
      em := { pend := [BitVec.ofNat 8 (s.sh.toNat / 256 % 8), BitVec.ofNat 8 (s.sh.toNat % 256)] } }

/-- The last control bit: the length byte is enqueued and the length code decides the next phase (R170, R171). -/
def Obligations.FaControlDone : Prop :=
  ∀ s : State,
    (s.inp.run = true → s.fa.phase = .arbitrationControl → s.out.bitReady = true → s.em.pend = [] → s.fa.cnt ≤ 1 →
      (s.sh.toNat % 16 = 0 → selectOp .a s = .ok .faCtlDoneEmpty) ∧
      (1 ≤ s.sh.toNat % 16 → s.sh.toNat % 16 ≤ 8 → selectOp .a s = .ok .faCtlDoneData) ∧
      (9 ≤ s.sh.toNat % 16 → selectOp .a s = .ok .faCtlDoneIllegal)) ∧
    exec .faCtlDoneEmpty s = .next { s with
      fa := { s.fa with phase := .crc, cnt := 15, shreg := s.sh, stuffFlag := s.fa.stuffFlag || s.out.stuffError }
      em := { pend := [BitVec.ofNat 8 (s.sh.toNat % 16)] } } ∧
    exec .faCtlDoneData s = .next { s with
      fa := { s.fa with phase := .data, cnt := 8, byteCnt := s.sh.toNat % 16, shreg := s.sh, stuffFlag := s.fa.stuffFlag || s.out.stuffError }
      em := { pend := [BitVec.ofNat 8 (s.sh.toNat % 16)] } } ∧
    exec .faCtlDoneIllegal s = .next { s with
      fa := { s.fa with phase := .idleWait, cnt := s.cfg.ifgBits, shreg := s.sh, stuffFlag := s.fa.stuffFlag || s.out.stuffError }
      em := { pend := [BitVec.ofNat 8 (s.sh.toNat % 16)] } }

/-- The last bit of a data byte: the byte is enqueued; more bytes stay in Data, the last goes to Crc (R174, R175). -/
def Obligations.FaDataByteDone : Prop :=
  ∀ s : State,
    (s.inp.run = true → s.fa.phase = .data → s.out.bitReady = true → s.em.pend = [] → s.fa.cnt ≤ 1 →
      (2 ≤ s.fa.byteCnt → selectOp .a s = .ok .faDataByte) ∧
      (s.fa.byteCnt ≤ 1 → selectOp .a s = .ok .faDataLast)) ∧
    exec .faDataByte s = .next { s with
      fa := { s.fa with cnt := 8, byteCnt := s.fa.byteCnt - 1, shreg := s.sh, stuffFlag := s.fa.stuffFlag || s.out.stuffError }
      em := { pend := [BitVec.ofNat 8 (s.sh.toNat % 256)] } } ∧
    exec .faDataLast s = .next { s with
      fa := { s.fa with phase := .crc, cnt := 15, byteCnt := 0, shreg := s.sh, stuffFlag := s.fa.stuffFlag || s.out.stuffError }
      em := { pend := [BitVec.ofNat 8 (s.sh.toNat % 256)] } }

/-- FA.CRC_DONE enqueues the received CRC field, high byte first, and enters CrcCheck (R177). -/
def Obligations.FaCrcFieldDone : Prop :=
  ∀ s : State,
    (s.inp.run = true → s.fa.phase = .crc → s.out.bitReady = true → s.em.pend = [] → s.fa.cnt ≤ 1 →
      selectOp .a s = .ok .faCrcDone) ∧
    exec .faCrcDone s = .next { s with
      fa := { s.fa with phase := .crcCheck, cnt := 0, shreg := s.sh, stuffFlag := s.fa.stuffFlag || s.out.stuffError }
      em := { pend := [BitVec.ofNat 8 (s.sh.toNat / 256 % 128), BitVec.ofNat 8 (s.sh.toNat % 256)] } }

/-- FA.CHECK enqueues 01 when the CRC register is 0, else 00, and enters IdleWait (R179). -/
def Obligations.FaVerdict : Prop :=
  ∀ s : State,
    (s.inp.run = true → s.fa.phase = .crcCheck → s.em.pend = [] → selectOp .a s = .ok .faCheck) ∧
    exec .faCheck s = .next { s with
      fa := { s.fa with phase := .idleWait, cnt := s.cfg.ifgBits, stuffFlag := s.fa.stuffFlag || s.out.stuffError }
      em := { pend := [if s.crc.reg = 0#15 then 1#8 else 0#8] } }

/-- Each FA.OVERRUN operation sets overrun and gives every other register its reset value (R183, R224). -/
def Obligations.FaOverrunOperations : Prop :=
  ∀ s : State,
    (s.inp.run = true → s.em.pend ≠ [] →
      (s.fa.phase = .idle → s.startEdge = true → selectOp .a s = .ok .faOverrunStart) ∧
      (s.fa.phase = .arbitrationId → s.out.bitReady = true → selectOp .a s = .ok .faOverrunId) ∧
      (s.fa.phase = .arbitrationControl → s.out.bitReady = true → selectOp .a s = .ok .faOverrunCtl) ∧
      (s.fa.phase = .data → s.out.bitReady = true → selectOp .a s = .ok .faOverrunData) ∧
      (s.fa.phase = .crc → s.out.bitReady = true → selectOp .a s = .ok .faOverrunCrc) ∧
      (s.fa.phase = .crcCheck → s.out.bitReady = true → selectOp .a s = .ok .faOverrunCheck) ∧
      (s.fa.phase = .idleWait → s.out.bitReady = true → selectOp .a s = .ok .faOverrunGap)) ∧
    (∀ i ∈ [Instr.faOverrunStart, .faOverrunId, .faOverrunCtl, .faOverrunData, .faOverrunCrc, .faOverrunCheck,
        .faOverrunGap],
      exec i s = .next { s with
        toRegs :=
      { btr := { state := .idle, cnt := 0, prevDom := false }
        bds := { lastBit := true, runLen := 0 }
        crc := { reg := 0#15 }
        fa := { phase := .idle, cnt := 0, byteCnt := 0, shreg := 0#15, sofPending := false, stuffFlag := false }
        em := { pend := [] }
        overrun := true }
        out := { s.out with overrun := true } })

/-- The selector words of format A select the operation the priority order of R162 names, in every state (R162). -/
def Obligations.FaSelectionFollowsPriority : Prop :=
  (∀ s : State, selectOp .a s = .ok (faArmByPriority s)) ∧
  (∀ (s : State) (y : Instr), selectOp .y s = .ok y → selectTick s = .ok (.system y))

/-- Within a tick: reset first, then the halt, then cancellation, then the other operations (R227, R250, R251,
R163). -/
def Obligations.TickPriority : Prop :=
  ∀ s : State, s.cfg.Legal →
    (s.beginTick.inp.rst = true → selectTick s.beginTick = .ok (.system .sysReset)) ∧
    (s.beginTick.inp.rst = false → s.overrun = true → selectTick s.beginTick = .ok (.system .sysHalt)) ∧
    (s.beginTick.inp.rst = false → s.overrun = false →
      ∃ t d c e a, selectTick s.beginTick = .ok (.arms t d c e a) ∧ (Bundle.arms t d c e a).WellFormed ∧
        (a = .faCancel ↔ s.beginTick.inp.run = false))

/-- No tick of a legal configuration is refused: reset and halted ticks always, the others from every register value
the spec gives a meaning (R80, R82, R7, R264).
Model's own: that reset and halted ticks do not check the register values of R82 (d) (log entry 8). -/
def Obligations.EveryLegalTickCompletes : Prop :=
  ∀ s : State, s.cfg.Legal → (s.beginTick.inp.rst = true ∨ s.overrun = true ∨ s.Representable) →
    ∃ t, step s = .next t

/-- A step runs the decoded operations: the system operation alone, or the five arms on the pre-tick snapshot, each
register from its own arm (R2, R3, R80, R183, R201, R202, R204, 30_encoding.md §3).
Model's own: how the five results are joined, and stuff_flag in the Overrun tick is the old register (log entries
9, 11). -/
def Obligations.AStepRunsTheSelectedOperations : Prop :=
  ∀ s : State, s.cfg.Legal →
    (∀ y, selectTick s.beginTick = .ok (.system y) → step s = exec y s.beginTick) ∧
    (∀ t d c e a b' d' c' e' f', selectTick s.beginTick = .ok (.arms t d c e a) → s.Representable →
      exec t s.beginTick = .next b' →
      exec d (s.beginTick.withWires b'.out) = .next d' →
      exec c (s.beginTick.withWires d'.out) = .next c' →
      exec e (s.beginTick.withWires d'.out) = .next e' →
      exec a (s.beginTick.withWires d'.out) = .next f' →
      (f'.overrun = false → step s = .next { s.beginTick with
        btr := b'.btr
        bds := d'.bds
        crc := c'.crc
        fa := f'.fa
        em := if s.em.pend = [] then f'.em else e'.em
        overrun := false
        out := { e'.out with stuffFlag := s.fa.stuffFlag }
        stream := e'.stream }) ∧
      (f'.overrun = true → step s = .next { s.beginTick with
        toRegs := f'.toRegs
        out := { e'.out with stuffFlag := s.fa.stuffFlag, overrun := true }
        stream := e'.stream }))

/-- Decoding any encoding of an operation gives that operation, whatever its either-value bits (R80, R82). -/
def Obligations.DecodeReadsBackEveryEncoding : Prop :=
  (∀ (i : Instr) (fill : List Bool), decode (encodeWith i fill) = .ok i) ∧
  (∀ (x : Selector) (i : Instr), decode x = .ok i → ∃ fill, x = encodeWith i fill)

/-- A few selector words written out from the patterns of R80 decode to their operations (R80, R81). -/
def Obligations.SelectorWordsDecodeAsPrinted : Prop :=
  decode ⟨.y, [true, true]⟩ = .ok .sysReset ∧
  decode ⟨.t, [true, false, true, false, true]⟩ = .ok .btrSample ∧
  decode ⟨.t, [true, true, false, true, false]⟩ = .ok .btrStop ∧
  decode ⟨.t, [true, false, true, true, false]⟩ = .error .unreachablePattern ∧
  decode ⟨.s, [true, true, false, true]⟩ = .ok .bdsViolation ∧
  decode ⟨.c, [false, true, true]⟩ = .ok .crcShiftx ∧
  decode ⟨.e, [true, false]⟩ = .ok .emStall ∧
  decode ⟨.a, [true, false, false, true, false, true, false, false, true, false, true, true]⟩ = .ok .faIdDone ∧
  decode ⟨.a, [true, false, true, false, false, true, false, true, true, true, false, false]⟩ = .ok .faCtlDoneIllegal ∧
  decode ⟨.a, [true, true, true, true, false, false, false, false, false, false, false, false]⟩ =
    .error .unreachablePattern

/-- Every step keeps the register invariant of R43 (R43, R21, R24, R251, R204). -/
def Obligations.RegisterInvariantKeptByEveryStep : Prop :=
  ∀ s t : State, s.Inv → step s = .next t → t.Inv

/-- The reset state of every legal configuration meets the register invariant (R43, R250). -/
def Obligations.ResetStateMeetsTheInvariant : Prop :=
  ∀ c : Config, c.Legal → (State.resetWith c).Inv

/-- A tick begun outside the framing phases leaves the destuffer reset (R43, R122, R183). -/
def Obligations.DestufferResetOutsideFraming : Prop :=
  ∀ s t : State, s.framing = false → s.overrun = false → step s = .next t →
    t.bds.runLen = 0 ∧ t.bds.lastBit = true

/-- No step changes the configuration (R5, R59, R36). -/
def Obligations.ConfigurationNeverChanges : Prop :=
  ∀ s t : State, step s = .next t → t.cfg = s.cfg

/-- Once halted, no run of ticks without rst changes a register, and no byte is pushed (R229, R251, R224).
Model's own: the halt as next states and the inputs as the list stim (log entries 2, 7). -/
def Obligations.HaltedUntilReset : Prop :=
  ∀ (k : Nat) (s t : State), s.overrun = true → k ≤ s.stim.length →
    (∀ w ∈ s.stim.take k, (Inputs.ofWord w).rst = false) →
    Host.Core.run Sys2Proof.core k s = .next t →
    t.toRegs = s.toRegs ∧ t.stream = s.stream

/-- Outside reset and Overrun, the bytes taken plus the bytes waiting only grow by what FA enqueues, in order (R206,
R205, R56, R204). -/
def Obligations.BytesAreNeverLostOrRepeated : Prop :=
  ∀ s t : State, s.Live → step s = .next t →
    ∃ x d c e a b' d' f',
      selectTick s.beginTick = .ok (.arms x d c e a) ∧
      exec x s.beginTick = .next b' ∧ exec d (s.beginTick.withWires b'.out) = .next d' ∧
      exec a (s.beginTick.withWires d'.out) = .next f' ∧
      (t.overrun = false →
        t.stream ++ t.em.pend = s.stream ++ s.em.pend ++ enqueued s f' ∧ (enqueued s f').length ≤ 2 ∧
        (s.em.pend ≠ [] → f'.em = s.em)) ∧
      (t.overrun = true → t.em.pend = [] ∧
        (t.stream = s.stream ∨ ∃ b rest, s.em.pend = b :: rest ∧ t.stream = s.stream ++ [b]))

/-- The sink gains the presented byte exactly in the ticks with byte_valid = 1 and sink_ready = 1 (R52, R202, R38). -/
def Obligations.AByteIsWrittenExactlyOnAHandshake : Prop :=
  ∀ s t : State, step s = .next t →
    t.stream = s.stream ++ (if t.out.byteValid = true ∧ t.inp.sinkReady = true then [t.out.byteData] else [])

/-- A live tick ends halted exactly when run = 1, the emitter is busy, and a bit (in Idle, a start edge) arrives
(R224, R183, R162). -/
def Obligations.OverrunExactlyOnAnEventWhileBlocked : Prop :=
  ∀ s t : State, s.Live → step s = .next t →
    (t.overrun = true ↔
      s.beginTick.inp.run = true ∧ s.em.pend ≠ [] ∧
      (if s.fa.phase = .idle then s.beginTick.startEdge = true else t.out.bitReady = true)) ∧
    (t.overrun = true → t.toRegs =
      { btr := { state := .idle, cnt := 0, prevDom := false }
        bds := { lastBit := true, runLen := 0 }
        crc := { reg := 0#15 }
        fa := { phase := .idle, cnt := 0, byteCnt := 0, shreg := 0#15, sofPending := false, stuffFlag := false }
        em := { pend := [] }
        overrun := true })

/-- In an Overrun tick the outputs are those the arms drove, with overrun = 1, and the handshake stands (R183, R38).
Model's own: stuff_flag in the Overrun tick is the old register (log entry 9). -/
def Obligations.OverrunTickKeepsItsOutputs : Prop :=
  ∀ s t : State, s.Live → step s = .next t → t.overrun = true →
    ∃ x d c e a b' d' e',
      selectTick s.beginTick = .ok (.arms x d c e a) ∧
      exec x s.beginTick = .next b' ∧ exec d (s.beginTick.withWires b'.out) = .next d' ∧
      exec e (s.beginTick.withWires d'.out) = .next e' ∧
      a ∈ [Instr.faOverrunStart, .faOverrunId, .faOverrunCtl, .faOverrunData, .faOverrunCrc, .faOverrunCheck,
        .faOverrunGap] ∧
      t.out = { byteValid := e'.out.byteValid, byteData := e'.out.byteData, stuffError := d'.out.stuffError,
                stuffFlag := s.fa.stuffFlag, overrun := true, boundary := b'.out.boundary,
                sample := b'.out.sample, bitReady := d'.out.bitReady } ∧
      t.stream = e'.stream

/-- While BTR is Running, the previous line level has no effect on a tick: there is no resynchronisation (R109,
R104). -/
def Obligations.EdgesAreIgnoredWhileRunning : Prop :=
  ∀ (s : State) (p : Bool), s.Live → s.btr.state = .running →
    step { s with btr := { s.btr with prevDom := p } } = step s

/-- Inside a bit cell, k ticks advance the counter by k, and sample is raised exactly at SETUP_TICKS (R110, R104,
R105).
Model's own: the inputs as the list stim (log entry 2). -/
def Obligations.TicksInsideABitCell : Prop :=
  ∀ (k : Nat) (s t : State), s.btr.state = .running → k ≤ s.stim.length →
    (∀ w ∈ s.stim.take k, (Inputs.ofWord w).rst = false) →
    s.btr.cnt + k < s.cfg.periodTicks →
    Host.Core.run Sys2Proof.core k s = .next t → t.overrun = false →
    t.btr.state = .running ∧ t.btr.cnt = s.btr.cnt + k ∧
    (1 ≤ k → t.out.sample = decide (t.btr.cnt = s.cfg.setupTicks) ∧ t.out.boundary = false)

/-- The last tick of a bit cell raises boundary and restarts the counter; BTR goes on exactly when keep = 1 (R106,
R107, R110, R21). -/
def Obligations.CellBoundaries : Prop :=
  ∀ s t : State, s.Live → s.btr.state = .running → s.btr.cnt + 1 = s.cfg.periodTicks → step s = .next t →
    t.out.boundary = true ∧ t.out.sample = false ∧
    (t.overrun = false → t.btr.cnt = 0 ∧
      (t.btr.state = .running ↔ s.beginTick.inp.run = true ∧ s.fa.phase ≠ .idle))

/-- bit_ready and stuff_error come only with sample, never together; sample and boundary never together (R120, R128,
R105). -/
def Obligations.StrobesNeverClash : Prop :=
  ∀ s t : State, step s = .next t →
    (t.out.bitReady = true → t.out.sample = true) ∧
    (t.out.stuffError = true → t.out.sample = true ∧ t.out.bitReady = false) ∧
    ¬ (t.out.sample = true ∧ t.out.boundary = true)

/-- A start edge with run = 1 and an idle emitter starts BTR and FA in the same tick (R103, R165, R101). -/
def Obligations.StartEdgeStartsTimingAndFrame : Prop :=
  ∀ s t : State, s.Live → s.btr.state = .idle → s.btr.prevDom = false → s.fa.phase = .idle → s.em.pend = [] →
    s.beginTick.inp.run = true → s.beginTick.inp.rxDom = true → step s = .next t →
    t.out.boundary = true ∧ t.btr = { state := .running, cnt := 0, prevDom := true } ∧
    t.fa.phase = .arbitrationId ∧ t.fa.cnt = 11 ∧ t.fa.sofPending = true ∧
    t.bds = { lastBit := true, runLen := 0 } ∧ t.crc = { reg := 0#15 } ∧ t.em.pend = [] ∧ t.stream = s.stream

/-- On a recessive bus the reset state is kept and no output is ever raised (R102, R164, 95_test_vectors.md E7). -/
def Obligations.IdleBusRaisesNothing : Prop :=
  ∀ s : State, s.cfg.Legal → s.toRegs = Regs.reset → s.beginTick.inp.rxDom = false →
    ∃ t, step s = .next t ∧ t.toRegs = Regs.reset ∧
      t.out = { byteValid := false, byteData := 0#8, stuffError := false, stuffFlag := false, overrun := false,
                boundary := false, sample := false, bitReady := false } ∧
      t.stream = s.stream

/-- run = 0 forces FA to Idle in the same tick, raises no Overrun and drops no pending byte (R163, R206, R225, R58). -/
def Obligations.CancelForcesIdleAndKeepsPendingBytes : Prop :=
  ∀ s t : State, s.Live → s.beginTick.inp.run = false → step s = .next t →
    t.fa = { phase := .idle, cnt := 0, byteCnt := 0, shreg := 0#15, sofPending := false, stuffFlag := false } ∧
    t.overrun = false ∧ t.stream ++ t.em.pend = s.stream ++ s.em.pend

/-- The CRC register takes every raw sampled bit of a framing phase, whether or not BDS passes it on (R146, R141,
R25). -/
def Obligations.CrcCoversTheRawBits : Prop :=
  ∀ s t : State, s.Live → step s = .next t → t.overrun = false →
    t.crc.reg =
      if s.fa.phase = .idle then 0#15
      else if s.framing = true ∧ t.out.sample = true then
        (if (!t.inp.rxDom) = s.crc.reg.getLsbD 14 then s.crc.reg <<< 1 else (s.crc.reg <<< 1) ^^^ 0x4599#15)
      else s.crc.reg

/-- fa.stuff_flag latches stuff_error until the end of the frame, a cancel, an overrun or a reset (R184, R31, R221). -/
def Obligations.StuffFlagLatchesUntilTheFrameEnds : Prop :=
  ∀ s t : State, s.Live → step s = .next t → t.overrun = false →
    t.fa.stuffFlag =
      if t.inp.run = false ∨ (s.fa.phase = .idleWait ∧ t.out.bitReady = true ∧ s.fa.cnt ≤ 1) then false
      else (s.fa.stuffFlag || t.out.stuffError)

/-- The outputs of a tick: byte_valid and byte_data show the head of em.pend before the tick, stuff_flag the old
flag, overrun the new one (R38, R201, R203, R3, R34).
Model's own: stuff_flag in the Overrun tick is the old register (log entry 9). -/
def Obligations.PortsShowThePreTickState : Prop :=
  ∀ s t : State, s.Live → step s = .next t →
    t.out.byteValid = !s.em.pend.isEmpty ∧ t.out.byteData = s.em.pend.headD 0#8 ∧
    t.out.stuffFlag = s.fa.stuffFlag ∧ t.out.overrun = t.overrun

/-- A byte enqueued in one tick is not visible in it and is presented in the next (R208, R57, R204). -/
def Obligations.AnEnqueuedByteIsPresentedNextTick : Prop :=
  ∀ (s t u : State) (b : Byte) (rest : List Byte), s.Live → s.em.pend = [] → step s = .next t →
    t.em.pend = b :: rest → t.Live → step t = .next u →
    t.out.byteValid = false ∧ u.out.byteValid = true ∧ u.out.byteData = b

/-- A frame in progress only moves toward its end: every consumed bit lowers the bound on the bits it still needs
(R186, R231, R27, R28). -/
def Obligations.FrameProgressIsBounded : Prop :=
  ∀ s t : State, s.Inv → s.Live → s.beginTick.inp.run = true → s.fa.phase ≠ .idle → step s = .next t →
    t.overrun = false →
    bitsToIdle t ≤ bitsToIdle s ∧
    (t.out.bitReady = true → s.fa.phase ≠ .crcCheck → bitsToIdle t < bitsToIdle s)

/-- Feeding the stuffed form of a bit sequence through BDS gives the sequence back, with no violation (R128, R85,
R122). -/
def Obligations.DestuffingRoundTrip : Prop :=
  ∀ (s : State) (p : List Bool), s.framing = true → s.bds = { lastBit := true, runLen := 0 } →
    ¬ [true, true, true, true] <+: p →
    ∃ d, feedDestuffer s (stuff p) = some (p, 0, d)

/-- A run of 6 + 5j identical bits raises j + 1 violations (R127, R128, R221). -/
def Obligations.LongRunsRaiseOneViolationPerFive : Prop :=
  ∀ (s : State) (b : Bool) (j : Nat), s.framing = true → s.bds = { lastBit := b, runLen := 0 } →
    ∃ d, feedDestuffer s (List.replicate (5 + 5 * j) b) = some (List.replicate (4 + 4 * j) b, j + 1, d)

/-- The CRC register ends at 0 after 15 bits exactly when those bits are the register value, most significant first
(R147, R144, R145). -/
def Obligations.CrcSyndrome : Prop :=
  ∀ (s : State) (bits : List Bool), s.framing = true → bits.length = 15 →
    (feedCrc s bits = some 0#15 ↔ bits = bitsMsbFirst 15 s.crc.reg.toNat)

/-- FA turns the de-stuffed bits of a frame into the bytes of its record (R71, R72, R73, R74, R79, R186, R82).
Model's own: exec .faCheck is applied to u, whose em.pend still holds the two CRC bytes and whose bit_ready is
still 1, a state that does not select FA.CHECK (R179 needs em.pend empty) (log entry 6). -/
def Obligations.FrameBitsBecomeTheRecord : Prop :=
  ∀ (s : State) (ident : BitVec 11) (b0 c2 c1 c0 : Bool),
    s.fa.phase = .arbitrationId → s.fa.cnt = 11 → s.fa.sofPending = true → s.fa.byteCnt = 0 →
    (∀ (data : List Byte) (crcField : Word15), data.length ≤ 8 →
      ∃ u, feedAssembler s (b0 :: bitsMsbFirst 11 ident.toNat ++ [c2, c1, c0] ++ bitsMsbFirst 4 data.length ++
            data.flatMap (fun d => bitsMsbFirst 8 d.toNat) ++ bitsMsbFirst 15 crcField.toNat) =
          some (identBytes ident ++ [BitVec.ofNat 8 data.length] ++ data ++ crcBytes crcField, u) ∧
        u.fa.phase = .crcCheck ∧
        ∃ v, exec .faCheck u = .next v ∧ v.fa.phase = .idleWait ∧ v.fa.cnt = s.cfg.ifgBits ∧
          identBytes ident ++ [BitVec.ofNat 8 data.length] ++ data ++ crcBytes crcField ++ v.em.pend =
            (Record.full ident data crcField (decide (u.crc.reg = 0#15))).bytes) ∧
    (∀ dlc : BitVec 4, 9 ≤ dlc.toNat →
      ∃ u, feedAssembler s (b0 :: bitsMsbFirst 11 ident.toNat ++ [c2, c1, c0] ++ bitsMsbFirst 4 dlc.toNat) =
          some ((Record.truncated ident dlc).bytes, u) ∧
        u.fa.phase = .idleWait ∧ u.fa.cnt = s.cfg.ifgBits)

/-- A consumer can read a record off the front of the stream: its length follows from its third byte (R73, R79, R83,
R54). -/
def Obligations.RecordsAreSelfDelimiting : Prop :=
  ∀ (r : Record) (rest : List Byte), r.WellFormed →
    takeRecord (r.bytes ++ rest) = some (r, rest) ∧ r.bytes.length = recordLength (r.bytes.getD 2 0#8)

/-- sh is (2 * shreg + bit) mod 2^15, and every field byte is the stated slice of it as an unsigned number (R72,
R74, R161, R45). -/
def Obligations.ShiftRegisterAndFieldValues : Prop :=
  (∀ s : State, s.sh.toNat = (2 * s.fa.shreg.toNat + (!s.inp.rxDom).toNat) % 2 ^ 15) ∧
  (∀ x : Word15,
    lengthCode x = x.toNat % 16 ∧ (lengthByte x).toNat = x.toNat % 16 ∧
    (idHighByte x).toNat = x.toNat / 256 % 8 ∧ (lowByte x).toNat = x.toNat % 256 ∧
    (crcHighByte x).toNat = x.toNat / 256)

/-- A profile with quanta before and after the sample point is legal exactly with a tick per quantum; the defaults
give 7 and 10 times it (R5, R6, R7, R8). -/
def Obligations.LegalTimingProfiles : Prop :=
  (∀ (p : TimingProfile) (g : Nat), 1 ≤ p.sync + p.prop + p.seg1 → 1 ≤ p.seg2 → 1 ≤ g → g ≤ 63 →
    ((p.config g).Legal ↔ 1 ≤ p.ticksPerQuantum)) ∧
  (∀ hz rate : Nat,
    (TimingProfile.ofRates hz rate).setupTicks = 7 * (TimingProfile.ofRates hz rate).ticksPerQuantum ∧
    (TimingProfile.ofRates hz rate).periodTicks = 10 * (TimingProfile.ofRates hz rate).ticksPerQuantum)

/-- A step refuses exactly an illegal configuration and, for the component arms, a register value without meaning
(R7, R9, R82, 93_implementation_defined.md I10).
Model's own: when the register values of R82 (d) are refused (log entry 8). -/
def Obligations.WhatAStepRefuses : Prop :=
  ∀ s : State,
    (step s = .refused .illegalConfiguration ↔
      ¬ (1 ≤ s.cfg.setupTicks ∧ s.cfg.setupTicks < s.cfg.periodTicks ∧ 1 ≤ s.cfg.ifgBits ∧ s.cfg.ifgBits ≤ 63)) ∧
    (s.cfg.Legal →
      (step s = .refused .unreachableEncoding ↔
        s.beginTick.inp.rst = false ∧ s.overrun = false ∧
        (4 < s.bds.runLen ∨ 2 < s.em.pend.length ∨ 8 < s.fa.byteCnt ∨ s.cfg.periodTicks ≤ s.btr.cnt ∨
          63 < s.fa.cnt)))

/-- The inputs of a tick are the bits of its input word: rst, run, sink_ready, rx_dom from bit 3 to bit 0 (R70,
R37).
Model's own: that the inputs come from the list stim (log entry 2). -/
def Obligations.InputsComeFromTheStimulusWord : Prop :=
  ∀ (s t : State) (w : TickWord) (ws : List TickWord), s.stim = w :: ws → step s = .next t →
    t.stim = ws ∧
    t.inp = { rst := w.getLsbD 3, run := w.getLsbD 2, sinkReady := w.getLsbD 1, rxDom := w.getLsbD 0 }

/-- fa.cnt never exceeds what its phase loads it with, and bitsToIdle never 98 + IFG_BITS (R27, R28, R186). -/
def Obligations.FieldCountersStayInRange : Prop :=
  ∀ s t : State, s.Inv → s.FieldBounds → step s = .next t →
    t.FieldBounds ∧ bitsToIdle t ≤ 98 + t.cfg.ifgBits
end

