-- ==== Sys2Proof/Laws/Flags.lean ====
section
/-! SUPPORT. When each combinational signal is 1 and when it is 0, in terms of registers and ports. -/

namespace Sys2Proof.Machine

variable {s : State}

theorem State.edge_iff : s.edge = true ↔ s.btr.prevDom = false ∧ s.inp.rxDom = true := by simp [State.edge]
theorem State.startEdge_iff :
    s.startEdge = true ↔ s.btr.state = .idle ∧ s.btr.prevDom = false ∧ s.inp.rxDom = true := by
  simp [State.startEdge, State.edge]
theorem State.startEdge_of_running (h : s.btr.state = .running) : s.startEdge = false := by
  simp [State.startEdge, h]
theorem State.keep_iff : s.keep = true ↔ s.inp.run = true ∧ s.fa.phase ≠ .idle := by simp [State.keep]
theorem State.atSetup_iff : s.atSetup = true ↔ s.btr.cnt + 1 = s.cfg.setupTicks := beq_iff_eq
theorem State.atSetup_false_iff : s.atSetup = false ↔ s.btr.cnt + 1 ≠ s.cfg.setupTicks := beq_eq_false_iff_ne
theorem State.atPeriod_iff : s.atPeriod = true ↔ s.cfg.periodTicks ≤ s.btr.cnt + 1 := decide_eq_true_iff
theorem State.atPeriod_false_iff : s.atPeriod = false ↔ s.btr.cnt + 1 < s.cfg.periodTicks := by
  rw [← Nat.not_le, ← State.atPeriod_iff, Bool.not_eq_true]
theorem State.framing_iff : s.framing = true ↔ s.fa.phase = .arbitrationId ∨ s.fa.phase = .arbitrationControl ∨
    s.fa.phase = .data ∨ s.fa.phase = .crc := by
  unfold State.framing; cases s.fa.phase <;> decide
theorem State.framing_false_iff :
    s.framing = false ↔ s.fa.phase = .idle ∨ s.fa.phase = .crcCheck ∨ s.fa.phase = .idleWait := by
  unfold State.framing; cases s.fa.phase <;> decide
theorem State.stuffPos_iff : s.stuffPos = true ↔ s.bds.runLen = 4 := beq_iff_eq
theorem State.stuffPos_false_iff : s.stuffPos = false ↔ s.bds.runLen ≠ 4 := beq_eq_false_iff_ne
theorem State.differs_iff : s.differs = true ↔ (!s.inp.rxDom) ≠ s.bds.lastBit := bne_iff_ne
theorem State.crcClear_iff : s.crcClear = true ↔ s.fa.phase = .idle := beq_iff_eq
theorem State.crcClear_false_iff : s.crcClear = false ↔ s.fa.phase ≠ .idle := beq_eq_false_iff_ne
theorem State.crcEn_iff : s.crcEn = true ↔ s.framing = true ∧ s.out.sample = true := by simp [State.crcEn]
theorem State.fb_iff : s.fb = true ↔ (!s.inp.rxDom) ≠ s.crc.reg.getLsbD 14 := by
  unfold State.fb State.rxBit; cases s.inp.rxDom <;> cases s.crc.reg.getLsbD 14 <;> decide
theorem State.blocked_iff : s.blocked = true ↔ s.em.pend ≠ [] := by simp [State.blocked]
theorem State.blocked_false_iff : s.blocked = false ↔ s.em.pend = [] := by simp [State.blocked]
theorem State.last_iff : s.last = true ↔ s.fa.cnt ≤ 1 := decide_eq_true_iff
theorem State.last_false_iff : s.last = false ↔ 1 < s.fa.cnt := by
  rw [← Nat.not_le, ← State.last_iff, Bool.not_eq_true]
theorem State.lastByte_iff : s.lastByte = true ↔ s.fa.byteCnt ≤ 1 := decide_eq_true_iff
theorem State.lastByte_false_iff : s.lastByte = false ↔ 1 < s.fa.byteCnt := by
  rw [← Nat.not_le, ← State.lastByte_iff, Bool.not_eq_true]

end Sys2Proof.Machine
end

