-- ==== Sys2Proof/Laws/State.lean ====
section
/-! SUPPORT. What each update of the state does to each field, once, so that no proof unfolds a record update. -/

namespace Sys2Proof.Machine

variable (s : State)

@[simp] theorem State.driveBtr_btr (st : BtrState) (n : Nat) (x y : Bool) : (s.driveBtr st n x y).btr = ⟨st, n, s.inp.rxDom⟩ := rfl
@[simp] theorem State.driveBtr_bds (st : BtrState) (n : Nat) (x y : Bool) : (s.driveBtr st n x y).bds = s.bds := rfl
@[simp] theorem State.driveBtr_crc (st : BtrState) (n : Nat) (x y : Bool) : (s.driveBtr st n x y).crc = s.crc := rfl
@[simp] theorem State.driveBtr_fa (st : BtrState) (n : Nat) (x y : Bool) : (s.driveBtr st n x y).fa = s.fa := rfl
@[simp] theorem State.driveBtr_em (st : BtrState) (n : Nat) (x y : Bool) : (s.driveBtr st n x y).em = s.em := rfl
@[simp] theorem State.driveBtr_overrun (st : BtrState) (n : Nat) (x y : Bool) : (s.driveBtr st n x y).overrun = s.overrun := rfl
@[simp] theorem State.driveBtr_cfg (st : BtrState) (n : Nat) (x y : Bool) : (s.driveBtr st n x y).cfg = s.cfg := rfl
@[simp] theorem State.driveBtr_inp (st : BtrState) (n : Nat) (x y : Bool) : (s.driveBtr st n x y).inp = s.inp := rfl
@[simp] theorem State.driveBtr_out (st : BtrState) (n : Nat) (x y : Bool) : (s.driveBtr st n x y).out = { s.out with boundary := x, sample := y } := rfl
@[simp] theorem State.driveBtr_stim (st : BtrState) (n : Nat) (x y : Bool) : (s.driveBtr st n x y).stim = s.stim := rfl
@[simp] theorem State.driveBtr_ticks (st : BtrState) (n : Nat) (x y : Bool) : (s.driveBtr st n x y).ticks = s.ticks := rfl
@[simp] theorem State.driveBtr_stream (st : BtrState) (n : Nat) (x y : Bool) : (s.driveBtr st n x y).stream = s.stream := rfl

@[simp] theorem State.driveBds_btr (l : Bool) (n : Nat) (x y : Bool) : (s.driveBds l n x y).btr = s.btr := rfl
@[simp] theorem State.driveBds_bds (l : Bool) (n : Nat) (x y : Bool) : (s.driveBds l n x y).bds = ⟨l, n⟩ := rfl
@[simp] theorem State.driveBds_crc (l : Bool) (n : Nat) (x y : Bool) : (s.driveBds l n x y).crc = s.crc := rfl
@[simp] theorem State.driveBds_fa (l : Bool) (n : Nat) (x y : Bool) : (s.driveBds l n x y).fa = s.fa := rfl
@[simp] theorem State.driveBds_em (l : Bool) (n : Nat) (x y : Bool) : (s.driveBds l n x y).em = s.em := rfl
@[simp] theorem State.driveBds_overrun (l : Bool) (n : Nat) (x y : Bool) : (s.driveBds l n x y).overrun = s.overrun := rfl
@[simp] theorem State.driveBds_cfg (l : Bool) (n : Nat) (x y : Bool) : (s.driveBds l n x y).cfg = s.cfg := rfl
@[simp] theorem State.driveBds_inp (l : Bool) (n : Nat) (x y : Bool) : (s.driveBds l n x y).inp = s.inp := rfl
@[simp] theorem State.driveBds_out (l : Bool) (n : Nat) (x y : Bool) : (s.driveBds l n x y).out = { s.out with bitReady := x, stuffError := y } := rfl
@[simp] theorem State.driveBds_stim (l : Bool) (n : Nat) (x y : Bool) : (s.driveBds l n x y).stim = s.stim := rfl
@[simp] theorem State.driveBds_ticks (l : Bool) (n : Nat) (x y : Bool) : (s.driveBds l n x y).ticks = s.ticks := rfl
@[simp] theorem State.driveBds_stream (l : Bool) (n : Nat) (x y : Bool) : (s.driveBds l n x y).stream = s.stream := rfl

@[simp] theorem State.writeCrc_btr (v : Word15) : (s.writeCrc v).btr = s.btr := rfl
@[simp] theorem State.writeCrc_bds (v : Word15) : (s.writeCrc v).bds = s.bds := rfl
@[simp] theorem State.writeCrc_crc (v : Word15) : (s.writeCrc v).crc = ⟨v⟩ := rfl
@[simp] theorem State.writeCrc_fa (v : Word15) : (s.writeCrc v).fa = s.fa := rfl
@[simp] theorem State.writeCrc_em (v : Word15) : (s.writeCrc v).em = s.em := rfl
@[simp] theorem State.writeCrc_overrun (v : Word15) : (s.writeCrc v).overrun = s.overrun := rfl
@[simp] theorem State.writeCrc_cfg (v : Word15) : (s.writeCrc v).cfg = s.cfg := rfl
@[simp] theorem State.writeCrc_inp (v : Word15) : (s.writeCrc v).inp = s.inp := rfl
@[simp] theorem State.writeCrc_out (v : Word15) : (s.writeCrc v).out = s.out := rfl
@[simp] theorem State.writeCrc_stim (v : Word15) : (s.writeCrc v).stim = s.stim := rfl
@[simp] theorem State.writeCrc_ticks (v : Word15) : (s.writeCrc v).ticks = s.ticks := rfl
@[simp] theorem State.writeCrc_stream (v : Word15) : (s.writeCrc v).stream = s.stream := rfl

@[simp] theorem State.presentNothing_btr : (s.presentNothing).btr = s.btr := rfl
@[simp] theorem State.presentNothing_bds : (s.presentNothing).bds = s.bds := rfl
@[simp] theorem State.presentNothing_crc : (s.presentNothing).crc = s.crc := rfl
@[simp] theorem State.presentNothing_fa : (s.presentNothing).fa = s.fa := rfl
@[simp] theorem State.presentNothing_em : (s.presentNothing).em = s.em := rfl
@[simp] theorem State.presentNothing_overrun : (s.presentNothing).overrun = s.overrun := rfl
@[simp] theorem State.presentNothing_cfg : (s.presentNothing).cfg = s.cfg := rfl
@[simp] theorem State.presentNothing_inp : (s.presentNothing).inp = s.inp := rfl
@[simp] theorem State.presentNothing_out : (s.presentNothing).out = { s.out with byteValid := false, byteData := 0#8 } := rfl
@[simp] theorem State.presentNothing_stim : (s.presentNothing).stim = s.stim := rfl
@[simp] theorem State.presentNothing_ticks : (s.presentNothing).ticks = s.ticks := rfl
@[simp] theorem State.presentNothing_stream : (s.presentNothing).stream = s.stream := rfl

@[simp] theorem State.presentByte_btr (b : Byte) : (s.presentByte b).btr = s.btr := rfl
@[simp] theorem State.presentByte_bds (b : Byte) : (s.presentByte b).bds = s.bds := rfl
@[simp] theorem State.presentByte_crc (b : Byte) : (s.presentByte b).crc = s.crc := rfl
@[simp] theorem State.presentByte_fa (b : Byte) : (s.presentByte b).fa = s.fa := rfl
@[simp] theorem State.presentByte_em (b : Byte) : (s.presentByte b).em = s.em := rfl
@[simp] theorem State.presentByte_overrun (b : Byte) : (s.presentByte b).overrun = s.overrun := rfl
@[simp] theorem State.presentByte_cfg (b : Byte) : (s.presentByte b).cfg = s.cfg := rfl
@[simp] theorem State.presentByte_inp (b : Byte) : (s.presentByte b).inp = s.inp := rfl
@[simp] theorem State.presentByte_out (b : Byte) : (s.presentByte b).out = { s.out with byteValid := true, byteData := b } := rfl
@[simp] theorem State.presentByte_stim (b : Byte) : (s.presentByte b).stim = s.stim := rfl
@[simp] theorem State.presentByte_ticks (b : Byte) : (s.presentByte b).ticks = s.ticks := rfl
@[simp] theorem State.presentByte_stream (b : Byte) : (s.presentByte b).stream = s.stream := rfl

@[simp] theorem State.pushByte_btr (b : Byte) (r : List Byte) : (s.pushByte b r).btr = s.btr := rfl
@[simp] theorem State.pushByte_bds (b : Byte) (r : List Byte) : (s.pushByte b r).bds = s.bds := rfl
@[simp] theorem State.pushByte_crc (b : Byte) (r : List Byte) : (s.pushByte b r).crc = s.crc := rfl
@[simp] theorem State.pushByte_fa (b : Byte) (r : List Byte) : (s.pushByte b r).fa = s.fa := rfl
@[simp] theorem State.pushByte_em (b : Byte) (r : List Byte) : (s.pushByte b r).em = ⟨r⟩ := rfl
@[simp] theorem State.pushByte_overrun (b : Byte) (r : List Byte) : (s.pushByte b r).overrun = s.overrun := rfl
@[simp] theorem State.pushByte_cfg (b : Byte) (r : List Byte) : (s.pushByte b r).cfg = s.cfg := rfl
@[simp] theorem State.pushByte_inp (b : Byte) (r : List Byte) : (s.pushByte b r).inp = s.inp := rfl
@[simp] theorem State.pushByte_out (b : Byte) (r : List Byte) : (s.pushByte b r).out = s.out := rfl
@[simp] theorem State.pushByte_stim (b : Byte) (r : List Byte) : (s.pushByte b r).stim = s.stim := rfl
@[simp] theorem State.pushByte_ticks (b : Byte) (r : List Byte) : (s.pushByte b r).ticks = s.ticks := rfl
@[simp] theorem State.pushByte_stream (b : Byte) (r : List Byte) : (s.pushByte b r).stream = s.stream ++ [b] := rfl

@[simp] theorem State.enqueue_btr (bs : List Byte) : (s.enqueue bs).btr = s.btr := rfl
@[simp] theorem State.enqueue_bds (bs : List Byte) : (s.enqueue bs).bds = s.bds := rfl
@[simp] theorem State.enqueue_crc (bs : List Byte) : (s.enqueue bs).crc = s.crc := rfl
@[simp] theorem State.enqueue_fa (bs : List Byte) : (s.enqueue bs).fa = s.fa := rfl
@[simp] theorem State.enqueue_em (bs : List Byte) : (s.enqueue bs).em = ⟨bs⟩ := rfl
@[simp] theorem State.enqueue_overrun (bs : List Byte) : (s.enqueue bs).overrun = s.overrun := rfl
@[simp] theorem State.enqueue_cfg (bs : List Byte) : (s.enqueue bs).cfg = s.cfg := rfl
@[simp] theorem State.enqueue_inp (bs : List Byte) : (s.enqueue bs).inp = s.inp := rfl
@[simp] theorem State.enqueue_out (bs : List Byte) : (s.enqueue bs).out = s.out := rfl
@[simp] theorem State.enqueue_stim (bs : List Byte) : (s.enqueue bs).stim = s.stim := rfl
@[simp] theorem State.enqueue_ticks (bs : List Byte) : (s.enqueue bs).ticks = s.ticks := rfl
@[simp] theorem State.enqueue_stream (bs : List Byte) : (s.enqueue bs).stream = s.stream := rfl

@[simp] theorem State.writeFa_btr (r : Fa) : (s.writeFa r).btr = s.btr := rfl
@[simp] theorem State.writeFa_bds (r : Fa) : (s.writeFa r).bds = s.bds := rfl
@[simp] theorem State.writeFa_crc (r : Fa) : (s.writeFa r).crc = s.crc := rfl
@[simp] theorem State.writeFa_fa (r : Fa) : (s.writeFa r).fa = { r with stuffFlag := s.fa.stuffFlag || s.out.stuffError } := rfl
@[simp] theorem State.writeFa_em (r : Fa) : (s.writeFa r).em = s.em := rfl
@[simp] theorem State.writeFa_overrun (r : Fa) : (s.writeFa r).overrun = s.overrun := rfl
@[simp] theorem State.writeFa_cfg (r : Fa) : (s.writeFa r).cfg = s.cfg := rfl
@[simp] theorem State.writeFa_inp (r : Fa) : (s.writeFa r).inp = s.inp := rfl
@[simp] theorem State.writeFa_out (r : Fa) : (s.writeFa r).out = s.out := rfl
@[simp] theorem State.writeFa_stim (r : Fa) : (s.writeFa r).stim = s.stim := rfl
@[simp] theorem State.writeFa_ticks (r : Fa) : (s.writeFa r).ticks = s.ticks := rfl
@[simp] theorem State.writeFa_stream (r : Fa) : (s.writeFa r).stream = s.stream := rfl

@[simp] theorem State.holdFa_btr : (s.holdFa).btr = s.btr := rfl
@[simp] theorem State.holdFa_bds : (s.holdFa).bds = s.bds := rfl
@[simp] theorem State.holdFa_crc : (s.holdFa).crc = s.crc := rfl
@[simp] theorem State.holdFa_fa : (s.holdFa).fa = { s.fa with stuffFlag := s.fa.stuffFlag || s.out.stuffError } := rfl
@[simp] theorem State.holdFa_em : (s.holdFa).em = s.em := rfl
@[simp] theorem State.holdFa_overrun : (s.holdFa).overrun = s.overrun := rfl
@[simp] theorem State.holdFa_cfg : (s.holdFa).cfg = s.cfg := rfl
@[simp] theorem State.holdFa_inp : (s.holdFa).inp = s.inp := rfl
@[simp] theorem State.holdFa_out : (s.holdFa).out = s.out := rfl
@[simp] theorem State.holdFa_stim : (s.holdFa).stim = s.stim := rfl
@[simp] theorem State.holdFa_ticks : (s.holdFa).ticks = s.ticks := rfl
@[simp] theorem State.holdFa_stream : (s.holdFa).stream = s.stream := rfl

@[simp] theorem State.clearFrame_btr : (s.clearFrame).btr = s.btr := rfl
@[simp] theorem State.clearFrame_bds : (s.clearFrame).bds = s.bds := rfl
@[simp] theorem State.clearFrame_crc : (s.clearFrame).crc = s.crc := rfl
@[simp] theorem State.clearFrame_fa : (s.clearFrame).fa = ⟨.idle, 0, 0, 0, false, false⟩ := rfl
@[simp] theorem State.clearFrame_em : (s.clearFrame).em = s.em := rfl
@[simp] theorem State.clearFrame_overrun : (s.clearFrame).overrun = s.overrun := rfl
@[simp] theorem State.clearFrame_cfg : (s.clearFrame).cfg = s.cfg := rfl
@[simp] theorem State.clearFrame_inp : (s.clearFrame).inp = s.inp := rfl
@[simp] theorem State.clearFrame_out : (s.clearFrame).out = s.out := rfl
@[simp] theorem State.clearFrame_stim : (s.clearFrame).stim = s.stim := rfl
@[simp] theorem State.clearFrame_ticks : (s.clearFrame).ticks = s.ticks := rfl
@[simp] theorem State.clearFrame_stream : (s.clearFrame).stream = s.stream := rfl

@[simp] theorem State.shiftFieldBit_btr : (s.shiftFieldBit).btr = s.btr := rfl
@[simp] theorem State.shiftFieldBit_bds : (s.shiftFieldBit).bds = s.bds := rfl
@[simp] theorem State.shiftFieldBit_crc : (s.shiftFieldBit).crc = s.crc := rfl
@[simp] theorem State.shiftFieldBit_fa : (s.shiftFieldBit).fa = { s.fa with shreg := s.sh, cnt := s.fa.cnt - 1, stuffFlag := s.fa.stuffFlag || s.out.stuffError } := rfl
@[simp] theorem State.shiftFieldBit_em : (s.shiftFieldBit).em = s.em := rfl
@[simp] theorem State.shiftFieldBit_overrun : (s.shiftFieldBit).overrun = s.overrun := rfl
@[simp] theorem State.shiftFieldBit_cfg : (s.shiftFieldBit).cfg = s.cfg := rfl
@[simp] theorem State.shiftFieldBit_inp : (s.shiftFieldBit).inp = s.inp := rfl
@[simp] theorem State.shiftFieldBit_out : (s.shiftFieldBit).out = s.out := rfl
@[simp] theorem State.shiftFieldBit_stim : (s.shiftFieldBit).stim = s.stim := rfl
@[simp] theorem State.shiftFieldBit_ticks : (s.shiftFieldBit).ticks = s.ticks := rfl
@[simp] theorem State.shiftFieldBit_stream : (s.shiftFieldBit).stream = s.stream := rfl

@[simp] theorem State.endField_btr (p : Phase) (n m : Nat) : (s.endField p n m).btr = s.btr := rfl
@[simp] theorem State.endField_bds (p : Phase) (n m : Nat) : (s.endField p n m).bds = s.bds := rfl
@[simp] theorem State.endField_crc (p : Phase) (n m : Nat) : (s.endField p n m).crc = s.crc := rfl
@[simp] theorem State.endField_fa (p : Phase) (n m : Nat) : (s.endField p n m).fa = ⟨p, n, m, s.sh, s.fa.sofPending, s.fa.stuffFlag || s.out.stuffError⟩ := rfl
@[simp] theorem State.endField_em (p : Phase) (n m : Nat) : (s.endField p n m).em = s.em := rfl
@[simp] theorem State.endField_overrun (p : Phase) (n m : Nat) : (s.endField p n m).overrun = s.overrun := rfl
@[simp] theorem State.endField_cfg (p : Phase) (n m : Nat) : (s.endField p n m).cfg = s.cfg := rfl
@[simp] theorem State.endField_inp (p : Phase) (n m : Nat) : (s.endField p n m).inp = s.inp := rfl
@[simp] theorem State.endField_out (p : Phase) (n m : Nat) : (s.endField p n m).out = s.out := rfl
@[simp] theorem State.endField_stim (p : Phase) (n m : Nat) : (s.endField p n m).stim = s.stim := rfl
@[simp] theorem State.endField_ticks (p : Phase) (n m : Nat) : (s.endField p n m).ticks = s.ticks := rfl
@[simp] theorem State.endField_stream (p : Phase) (n m : Nat) : (s.endField p n m).stream = s.stream := rfl

@[simp] theorem State.endControl_btr (p : Phase) (n m : Nat) : (s.endControl p n m).btr = s.btr := rfl
@[simp] theorem State.endControl_bds (p : Phase) (n m : Nat) : (s.endControl p n m).bds = s.bds := rfl
@[simp] theorem State.endControl_crc (p : Phase) (n m : Nat) : (s.endControl p n m).crc = s.crc := rfl
@[simp] theorem State.endControl_fa (p : Phase) (n m : Nat) : (s.endControl p n m).fa = ⟨p, n, m, s.sh, s.fa.sofPending, s.fa.stuffFlag || s.out.stuffError⟩ := rfl
@[simp] theorem State.endControl_em (p : Phase) (n m : Nat) : (s.endControl p n m).em = ⟨[lengthByte s.sh]⟩ := rfl
@[simp] theorem State.endControl_overrun (p : Phase) (n m : Nat) : (s.endControl p n m).overrun = s.overrun := rfl
@[simp] theorem State.endControl_cfg (p : Phase) (n m : Nat) : (s.endControl p n m).cfg = s.cfg := rfl
@[simp] theorem State.endControl_inp (p : Phase) (n m : Nat) : (s.endControl p n m).inp = s.inp := rfl
@[simp] theorem State.endControl_out (p : Phase) (n m : Nat) : (s.endControl p n m).out = s.out := rfl
@[simp] theorem State.endControl_stim (p : Phase) (n m : Nat) : (s.endControl p n m).stim = s.stim := rfl
@[simp] theorem State.endControl_ticks (p : Phase) (n m : Nat) : (s.endControl p n m).ticks = s.ticks := rfl
@[simp] theorem State.endControl_stream (p : Phase) (n m : Nat) : (s.endControl p n m).stream = s.stream := rfl

@[simp] theorem State.raiseOverrun_btr : (s.raiseOverrun).btr = Regs.reset.btr := rfl
@[simp] theorem State.raiseOverrun_bds : (s.raiseOverrun).bds = Regs.reset.bds := rfl
@[simp] theorem State.raiseOverrun_crc : (s.raiseOverrun).crc = Regs.reset.crc := rfl
@[simp] theorem State.raiseOverrun_fa : (s.raiseOverrun).fa = Regs.reset.fa := rfl
@[simp] theorem State.raiseOverrun_em : (s.raiseOverrun).em = Regs.reset.em := rfl
@[simp] theorem State.raiseOverrun_overrun : (s.raiseOverrun).overrun = true := rfl
@[simp] theorem State.raiseOverrun_cfg : (s.raiseOverrun).cfg = s.cfg := rfl
@[simp] theorem State.raiseOverrun_inp : (s.raiseOverrun).inp = s.inp := rfl
@[simp] theorem State.raiseOverrun_out : (s.raiseOverrun).out = { s.out with overrun := true } := rfl
@[simp] theorem State.raiseOverrun_stim : (s.raiseOverrun).stim = s.stim := rfl
@[simp] theorem State.raiseOverrun_ticks : (s.raiseOverrun).ticks = s.ticks := rfl
@[simp] theorem State.raiseOverrun_stream : (s.raiseOverrun).stream = s.stream := rfl

@[simp] theorem State.resetTick_btr : (s.resetTick).btr = Regs.reset.btr := rfl
@[simp] theorem State.resetTick_bds : (s.resetTick).bds = Regs.reset.bds := rfl
@[simp] theorem State.resetTick_crc : (s.resetTick).crc = Regs.reset.crc := rfl
@[simp] theorem State.resetTick_fa : (s.resetTick).fa = Regs.reset.fa := rfl
@[simp] theorem State.resetTick_em : (s.resetTick).em = Regs.reset.em := rfl
@[simp] theorem State.resetTick_overrun : (s.resetTick).overrun = Regs.reset.overrun := rfl
@[simp] theorem State.resetTick_cfg : (s.resetTick).cfg = s.cfg := rfl
@[simp] theorem State.resetTick_inp : (s.resetTick).inp = s.inp := rfl
@[simp] theorem State.resetTick_out : (s.resetTick).out = Outputs.zero := rfl
@[simp] theorem State.resetTick_stim : (s.resetTick).stim = s.stim := rfl
@[simp] theorem State.resetTick_ticks : (s.resetTick).ticks = s.ticks := rfl
@[simp] theorem State.resetTick_stream : (s.resetTick).stream = s.stream := rfl

@[simp] theorem State.stayHalted_btr : (s.stayHalted).btr = s.btr := rfl
@[simp] theorem State.stayHalted_bds : (s.stayHalted).bds = s.bds := rfl
@[simp] theorem State.stayHalted_crc : (s.stayHalted).crc = s.crc := rfl
@[simp] theorem State.stayHalted_fa : (s.stayHalted).fa = s.fa := rfl
@[simp] theorem State.stayHalted_em : (s.stayHalted).em = s.em := rfl
@[simp] theorem State.stayHalted_overrun : (s.stayHalted).overrun = s.overrun := rfl
@[simp] theorem State.stayHalted_cfg : (s.stayHalted).cfg = s.cfg := rfl
@[simp] theorem State.stayHalted_inp : (s.stayHalted).inp = s.inp := rfl
@[simp] theorem State.stayHalted_out : (s.stayHalted).out = { Outputs.zero with overrun := true } := rfl
@[simp] theorem State.stayHalted_stim : (s.stayHalted).stim = s.stim := rfl
@[simp] theorem State.stayHalted_ticks : (s.stayHalted).ticks = s.ticks := rfl
@[simp] theorem State.stayHalted_stream : (s.stayHalted).stream = s.stream := rfl

@[simp] theorem State.beginTick_btr : (s.beginTick).btr = s.btr := rfl
@[simp] theorem State.beginTick_bds : (s.beginTick).bds = s.bds := rfl
@[simp] theorem State.beginTick_crc : (s.beginTick).crc = s.crc := rfl
@[simp] theorem State.beginTick_fa : (s.beginTick).fa = s.fa := rfl
@[simp] theorem State.beginTick_em : (s.beginTick).em = s.em := rfl
@[simp] theorem State.beginTick_overrun : (s.beginTick).overrun = s.overrun := rfl
@[simp] theorem State.beginTick_cfg : (s.beginTick).cfg = s.cfg := rfl
theorem State.beginTick_inp : (s.beginTick).inp = Inputs.ofWord s.nextInput := rfl
@[simp] theorem State.beginTick_out : (s.beginTick).out = Outputs.zero := rfl
@[simp] theorem State.beginTick_stim : (s.beginTick).stim = s.stim.tail := rfl
@[simp] theorem State.beginTick_ticks : (s.beginTick).ticks = s.ticks + 1 := rfl
@[simp] theorem State.beginTick_stream : (s.beginTick).stream = s.stream := rfl

@[simp] theorem State.withWires_btr (o : Outputs) : (s.withWires o).btr = s.btr := rfl
@[simp] theorem State.withWires_bds (o : Outputs) : (s.withWires o).bds = s.bds := rfl
@[simp] theorem State.withWires_crc (o : Outputs) : (s.withWires o).crc = s.crc := rfl
@[simp] theorem State.withWires_fa (o : Outputs) : (s.withWires o).fa = s.fa := rfl
@[simp] theorem State.withWires_em (o : Outputs) : (s.withWires o).em = s.em := rfl
@[simp] theorem State.withWires_overrun (o : Outputs) : (s.withWires o).overrun = s.overrun := rfl
@[simp] theorem State.withWires_cfg (o : Outputs) : (s.withWires o).cfg = s.cfg := rfl
@[simp] theorem State.withWires_inp (o : Outputs) : (s.withWires o).inp = s.inp := rfl
@[simp] theorem State.withWires_out (o : Outputs) : (s.withWires o).out = o := rfl
@[simp] theorem State.withWires_stim (o : Outputs) : (s.withWires o).stim = s.stim := rfl
@[simp] theorem State.withWires_ticks (o : Outputs) : (s.withWires o).ticks = s.ticks := rfl
@[simp] theorem State.withWires_stream (o : Outputs) : (s.withWires o).stream = s.stream := rfl

/-- Two states with the same fields are equal. -/
theorem State.ext_fields {s t : State} (hr : s.toRegs = t.toRegs) (hc : s.cfg = t.cfg) (hi : s.inp = t.inp)
    (ho : s.out = t.out) (hs : s.stim = t.stim) (ht : s.ticks = t.ticks) (hb : s.stream = t.stream) : s = t := by
  cases s; cases t; simp_all

end Sys2Proof.Machine
end

