-- ==== Sys2Proof/Laws/Exec.lean ====
section
/-! SUPPORT. What an operation of each format can do, said once: the registers of its own component, its own strobes, and
nothing else. -/

namespace Sys2Proof.Machine

/-- A BTR operation is one drive of BTR's registers and strobes. -/
theorem exec_of_format_t {i : Instr} (hi : i.format = .t) (s : State) :
    ∃ st n x y, exec i s = .next (s.driveBtr st n x y) := by
  cases i <;> first | exact ⟨_, _, _, _, rfl⟩ | cases hi

/-- A BDS operation is one drive of BDS's registers and strobes. -/
theorem exec_of_format_s {i : Instr} (hi : i.format = .s) (s : State) :
    ∃ l n x y, exec i s = .next (s.driveBds l n x y) := by
  cases i <;> first | exact ⟨_, _, _, _, rfl⟩ | cases hi

/-- A CRC operation is one write of the CRC register. -/
theorem exec_of_format_c {i : Instr} (hi : i.format = .c) (s : State) : ∃ v, exec i s = .next (s.writeCrc v) := by
  cases i <;> first | exact ⟨_, rfl⟩ | cases hi

/-- An EM operation presents the first waiting byte, if any, and perhaps pushes it. -/
theorem exec_of_format_e {i : Instr} (hi : i.format = .e) (s : State) :
    exec i s = .next s.presentNothing ∨
    ∃ b r, s.em.pend = b :: r ∧
      (exec i s = .next (s.presentByte b) ∨ exec i s = .next ((s.presentByte b).pushByte b r)) := by
  have hpush : exec .emPush s = execEmPush s := rfl
  have hstall : exec .emStall s = execEmStall s := rfl
  cases i <;> first
    | exact .inl rfl
    | cases hi; done
    | (cases hp : s.em.pend with
        | nil => simp [hpush, hstall, execEmPush, execEmStall, hp]
        | cons b r => exact .inr ⟨b, r, rfl, by simp [hpush, hstall, execEmPush, execEmStall, hp]⟩)

/-- An FA operation raises Overrun, or writes FA's registers and perhaps enqueues; its strobes stay as they are. -/
theorem exec_of_format_a {i : Instr} (hi : i.format = .a) (s : State) :
    exec i s = .next s.raiseOverrun ∨ ∃ r e, exec i s = .next { s with fa := r, em := e } := by
  cases i <;> first | exact .inl rfl | exact .inr ⟨_, _, rfl⟩ | cases hi

/-- A system operation resets the registers or leaves them alone. -/
theorem exec_of_format_y {i : Instr} (hi : i.format = .y) (s : State) :
    exec i s = .next s.resetTick ∨ exec i s = .next s.stayHalted := by
  cases i <;> first | exact .inl rfl | exact .inr rfl | cases hi

/-- No operation touches the configuration, the inputs, the stimulus or the draw index. -/
theorem exec_keeps_environment {i : Instr} {s t : State} (h : exec i s = .next t) :
    t.cfg = s.cfg ∧ t.inp = s.inp ∧ t.stim = s.stim ∧ t.ticks = s.ticks := by
  have hi : ∃ f, i.format = f := ⟨_, rfl⟩
  obtain ⟨f, hf⟩ := hi
  cases f with
  | y => rcases exec_of_format_y hf s with e | e <;> rw [e] at h <;> cases h <;> exact ⟨rfl, rfl, rfl, rfl⟩
  | t => obtain ⟨_, _, _, _, e⟩ := exec_of_format_t hf s; rw [e] at h; cases h; exact ⟨rfl, rfl, rfl, rfl⟩
  | s => obtain ⟨_, _, _, _, e⟩ := exec_of_format_s hf s; rw [e] at h; cases h; exact ⟨rfl, rfl, rfl, rfl⟩
  | c => obtain ⟨_, e⟩ := exec_of_format_c hf s; rw [e] at h; cases h; exact ⟨rfl, rfl, rfl, rfl⟩
  | e =>
    rcases exec_of_format_e hf s with e | ⟨_, _, _, e | e⟩ <;> rw [e] at h <;> cases h <;> exact ⟨rfl, rfl, rfl, rfl⟩
  | a => rcases exec_of_format_a hf s with e | ⟨_, _, e⟩ <;> rw [e] at h <;> cases h <;> exact ⟨rfl, rfl, rfl, rfl⟩

end Sys2Proof.Machine
end

