-- ==== Sys2Proof/Laws/Ops.lean ====
section
/-! SUPPORT. One lemma per shared operation that is not a plain register write: continuing, committing, beginning a tick,
reading the input word, shifting. -/

namespace Sys2Proof.Machine

@[simp] theorem andThen_next (s : State) (k : State → Outcome) : andThen (.next s) k = k s := rfl

/-- A continued outcome is a next state only through one. -/
theorem andThen_eq_next {o : Outcome} {k : State → Outcome} {t : State} :
    andThen o k = .next t ↔ ∃ s, o = .next s ∧ k s = .next t := by
  cases o <;> simp [andThen]

/-- A commit after Overrun: FA's registers, the ports the arms drove with `overrun` 1, the byte of this tick pushed. -/
theorem commit_of_overrun {s b d c e f : State} (h : f.overrun = true) :
    commit s b d c e f =
      { s with
        toRegs := f.toRegs
        out := { e.out with stuffFlag := s.fa.stuffFlag, overrun := true }
        stream := e.stream } := by
  simp [commit, h]

/-- A commit without Overrun: each component's registers from its own arm. -/
theorem commit_of_ok {s b d c e f : State} (h : f.overrun = false) :
    commit s b d c e f =
      { s with
        btr := b.btr, bds := d.bds, crc := c.crc, fa := f.fa
        em := if s.em.pend = [] then f.em else e.em
        overrun := false
        out := { e.out with stuffFlag := s.fa.stuffFlag }
        stream := e.stream } := by
  simp [commit, h]

@[simp] theorem commit_cfg (s b d c e f : State) : (commit s b d c e f).cfg = s.cfg := by unfold commit; split <;> rfl
@[simp] theorem commit_inp (s b d c e f : State) : (commit s b d c e f).inp = s.inp := by unfold commit; split <;> rfl
@[simp] theorem commit_stim (s b d c e f : State) : (commit s b d c e f).stim = s.stim := by unfold commit; split <;> rfl
@[simp] theorem commit_ticks (s b d c e f : State) : (commit s b d c e f).ticks = s.ticks := by
  unfold commit; split <;> rfl
@[simp] theorem commit_stream (s b d c e f : State) : (commit s b d c e f).stream = e.stream := by
  unfold commit; split <;> rfl

/-- A commit is halted exactly when FA raised Overrun. -/
theorem commit_overrun (s b d c e f : State) : (commit s b d c e f).overrun = f.overrun := by
  unfold commit; split
  · rfl
  · next h => simpa using h

/-- The input word of a tick that the stimulus gives. -/
theorem nextInput_of_stim {s : State} {w : TickWord} {ws : List TickWord} (h : s.stim = w :: ws) : s.nextInput = w := by
  simp [State.nextInput, h]

/-- Beginning a tick changes no register. -/
@[simp] theorem beginTick_toRegs (s : State) : s.beginTick.toRegs = s.toRegs := rfl

end Sys2Proof.Machine
end

