-- ==== Sys2Proof/Laws/Decode.lean ====
section
/-! SUPPORT. The small lemmas of the decoder and encoder. -/

namespace Sys2Proof

@[simp] theorem PatBit.admits_o (b : Bool) : PatBit.o.admits b = !b := rfl
@[simp] theorem PatBit.admits_i (b : Bool) : PatBit.i.admits b = b := rfl
@[simp] theorem PatBit.admits_x (b : Bool) : PatBit.x.admits b = true := rfl

/-- A pattern matches every filling of itself. -/
theorem patMatches_fillPattern (p : List PatBit) (fill : List Bool) : patMatches p (fillPattern p fill) = true := by
  induction p generalizing fill with
  | nil => rfl
  | cons b p ih =>
    cases b with
    | o => simp [fillPattern, patMatches, ih]
    | i => simp [fillPattern, patMatches, ih]
    | x => cases fill <;> simp [fillPattern, patMatches, ih]

/-- A filling has its pattern's length. -/
theorem fillPattern_length (p : List PatBit) (fill : List Bool) : (fillPattern p fill).length = p.length := by
  induction p generalizing fill with
  | nil => rfl
  | cons b p ih => cases b <;> cases fill <;> simp [fillPattern, ih]

/-- A word that matches a pattern has its length. -/
theorem patMatches_length {p : List PatBit} {w : List Bool} (h : patMatches p w = true) : w.length = p.length := by
  induction p generalizing w with
  | nil => cases w with
    | nil => rfl
    | cons b w => simp [patMatches] at h
  | cons b p ih => cases w with
    | nil => simp [patMatches] at h
    | cons c w =>
      simp only [patMatches, Bool.and_eq_true] at h
      simp [ih h.2]

/-- A pattern has its format's width. -/
theorem patternOf_length (i : Instr) : (patternOf i).length = i.format.width := by cases i <;> rfl

/-- An encoding is a well-formed selector word. -/
theorem encodeWith_wellFormed (i : Instr) (fill : List Bool) : (encodeWith i fill).WellFormed := by
  show (fillPattern (patternOf i) fill).length = i.format.width
  rw [fillPattern_length, patternOf_length]

/-- A row of a format is an operation of that format. -/
theorem format_of_mem_rowsOf {f : Format} {i : Instr} (h : i ∈ rowsOf f) : i.format = f := by
  cases f <;> revert i <;> decide

/-- Every operation stands in its format's rows. -/
theorem mem_rowsOf (i : Instr) : i ∈ rowsOf i.format := by cases i <;> decide

/-- What a decoded word was: of the operation's format, well formed, and matching its pattern. -/
theorem decode_ok {x : Selector} {i : Instr} (h : decode x = .ok i) :
    x.WellFormed ∧ i.format = x.format ∧ patMatches (patternOf i) x.word = true := by
  unfold decode at h
  split at h
  · next hw =>
    split at h
    · next j hj =>
      cases h
      exact ⟨hw, format_of_mem_rowsOf (List.mem_of_find?_eq_some hj), by simpa using List.find?_some hj⟩
    · cases h
  · cases h

/-- Two patterns conflict when some bit is 0 in one and 1 in the other. -/
def patConflict : List PatBit → List PatBit → Bool
  | .o :: _, .i :: _ => true
  | .i :: _, .o :: _ => true
  | _ :: ps, _ :: qs => patConflict ps qs
  | _, _ => false

/-- No word matches two conflicting patterns. -/
theorem not_both_match {p q : List PatBit} (h : patConflict p q = true) (w : List Bool)
    (hp : patMatches p w = true) : patMatches q w = false := by
  induction p generalizing q w with
  | nil => cases q <;> simp [patConflict] at h
  | cons a p ih =>
    cases q with
    | nil => cases a <;> simp [patConflict] at h
    | cons b q =>
      cases w with
      | nil => rfl
      | cons c w =>
        simp only [patMatches, Bool.and_eq_true] at hp
        cases a <;> cases b <;> simp_all [patConflict, patMatches]

/-- The patterns of a format are pairwise disjoint (30_encoding.md R80). -/
theorem rows_conflict (f : Format) : ∀ i ∈ rowsOf f, ∀ j ∈ rowsOf f, i ≠ j →
    patConflict (patternOf i) (patternOf j) = true := by
  cases f <;> decide

/-- Format Y (30_encoding.md R80). -/
theorem decode_y : ∀ r o : Bool, decode ⟨.y, [r, o]⟩ =
    if r then .ok .sysReset else if o then .ok .sysHalt else .error .noSystemRow := by decide

/-- Format T (30_encoding.md R80). -/
theorem decode_t : ∀ s e p q k : Bool, decode ⟨.t, [s, e, p, q, k]⟩ =
    if s then (if q then (if p then .error .unreachablePattern else if k then .ok .btrRoll else .ok .btrStop)
      else if p then .ok .btrSample else .ok .btrCount)
    else if e then .ok .btrStart else .ok .btrWait := by decide

/-- Format S (30_encoding.md R80). -/
theorem decode_s : ∀ f m d g : Bool, decode ⟨.s, [f, m, d, g]⟩ = .ok
    (if f then (if m then (if d then (if g then .bdsDestuff else .bdsPassNew)
        else if g then .bdsViolation else .bdsPassRun)
      else .bdsHold) else .bdsBypass) := by decide

/-- Format C (30_encoding.md R80). -/
theorem decode_c : ∀ i a z : Bool, decode ⟨.c, [i, a, z]⟩ = .ok
    (if i then .crcClear else if a then (if z then .crcShiftx else .crcShift) else .crcHold) := by decide

/-- Format E (30_encoding.md R80). -/
theorem decode_e : ∀ v r : Bool, decode ⟨.e, [v, r]⟩ = .ok
    (if v then (if r then .emPush else .emStall) else .emEmpty) := by decide

/-- Format A with `run = 0` (30_encoding.md R80). -/
theorem decode_a_cancel (p2 p1 p0 e y k o l c1 c0 w : Bool) :
    decode ⟨.a, [false, p2, p1, p0, e, y, k, o, l, c1, c0, w]⟩ = .ok .faCancel := rfl

/-- Format A, phase `arbitrationId` (30_encoding.md R80, R81). -/
theorem decode_a_arbitrationId : ∀ e y k o l c1 c0 w : Bool,
    decode ⟨.a, [true, false, false, true, e, y, k, o, l, c1, c0, w]⟩ = .ok
    (if y then (if k then .faOverrunId else if o then .faSof else if l then .faIdDone else .faIdShift)
      else .faHoldId) := by decide

/-- Format A, phase `arbitrationControl` (30_encoding.md R80, R81); `cc = 11` never occurs. -/
theorem decode_a_arbitrationControl : ∀ e y k o l c1 c0 w : Bool, (c1 && c0) = false →
    decode ⟨.a, [true, false, true, false, e, y, k, o, l, c1, c0, w]⟩ = .ok
    (if y then (if k then .faOverrunCtl else if l then
        (if c1 then .faCtlDoneIllegal else if c0 then .faCtlDoneData else .faCtlDoneEmpty) else .faCtlShift)
      else .faHoldCtl) := by decide

/-- Format A, phase `data` (30_encoding.md R80, R81). -/
theorem decode_a_data : ∀ e y k o l c1 c0 w : Bool,
    decode ⟨.a, [true, false, true, true, e, y, k, o, l, c1, c0, w]⟩ = .ok
    (if y then (if k then .faOverrunData else if l then (if w then .faDataLast else .faDataByte) else .faDataShift)
      else .faHoldData) := by decide

/-- Format A, phase `crc` (30_encoding.md R80, R81). -/
theorem decode_a_crc : ∀ e y k o l c1 c0 w : Bool,
    decode ⟨.a, [true, true, false, false, e, y, k, o, l, c1, c0, w]⟩ = .ok
    (if y then (if k then .faOverrunCrc else if l then .faCrcDone else .faCrcShift) else .faHoldCrc) := by decide

/-- Format A, phase `crcCheck` (30_encoding.md R80, R81). -/
theorem decode_a_crcCheck : ∀ e y k o l c1 c0 w : Bool,
    decode ⟨.a, [true, true, false, true, e, y, k, o, l, c1, c0, w]⟩ = .ok
    (if k then (if y then .faOverrunCheck else .faCheckWait) else .faCheck) := by decide

/-- Format A, phase `idleWait` (30_encoding.md R80, R81). -/
theorem decode_a_idleWait : ∀ e y k o l c1 c0 w : Bool,
    decode ⟨.a, [true, true, true, false, e, y, k, o, l, c1, c0, w]⟩ = .ok
    (if y then (if k then .faOverrunGap else if l then .faGapDone else .faGapCount) else .faHoldGap) := by decide

/-- Format A, phase `idle` (30_encoding.md R80, R81). -/
theorem decode_a_idle : ∀ e y k o l c1 c0 w : Bool,
    decode ⟨.a, [true, false, false, false, e, y, k, o, l, c1, c0, w]⟩ = .ok
    (if e then (if k then .faOverrunStart else .faStart) else .faIdle) := by decide

end Sys2Proof
end

