-- ==== Sys2Proof/Laws/Select.lean ====
section
/-! SUPPORT. Selection said once per format: which operation a state's selector word decodes to. -/

namespace Sys2Proof.Machine

/-- A selected operation is one of its format. -/
theorem selectOp_format {f : Format} {s : State} {i : Instr} (h : selectOp f s = .ok i) : i.format = f :=
  (decode_ok h).2.1

/-- Format Y: reset first, then the halt (60_exceptions.md R227). -/
theorem selectOp_y (s : State) : selectOp .y s =
    if s.inp.rst then .ok .sysReset else if s.overrun then .ok .sysHalt else .error .noSystemRow := decode_y _ _

theorem selectOp_t (s : State) : selectOp .t s =
    if s.btr.state = .idle then (if s.edge then .ok .btrStart else .ok .btrWait)
    else if s.atPeriod then
      (if s.atSetup then .error .unreachablePattern else if s.keep then .ok .btrRoll else .ok .btrStop)
    else (if s.atSetup then .ok .btrSample else .ok .btrCount) := by
  rw [selectOp, selectorWord, decode_t]
  cases s.btr.state <;> rfl

theorem selectOp_s (s : State) : selectOp .s s = .ok
    (if s.framing then (if s.out.sample then (if s.differs then (if s.stuffPos then .bdsDestuff else .bdsPassNew)
        else if s.stuffPos then .bdsViolation else .bdsPassRun)
      else .bdsHold) else .bdsBypass) := decode_s _ _ _ _

theorem selectOp_c (s : State) : selectOp .c s = .ok
    (if s.crcClear then .crcClear else if s.crcEn then (if s.fb then .crcShiftx else .crcShift) else .crcHold) :=
  decode_c _ _ _

theorem selectOp_e (s : State) : selectOp .e s = .ok
    (if s.blocked then (if s.inp.sinkReady then .emPush else .emStall) else .emEmpty) := decode_e _ _

end Sys2Proof.Machine
end

