-- ==== Sys2Proof/Laws/Step.lean ====
section
/-! SUPPORT. Everything a step that answers a next state has done, said once. -/

namespace Sys2Proof.Machine

/-- A selected bundle holds, in each slot, the operation that component selected with the strobes before it. -/
theorem selectTick_arms {s : State} {t d c e a : Instr} (h : selectTick s = .ok (.arms t d c e a)) :
    s.inp.rst = false ∧ s.overrun = false ∧ selectOp .t s = .ok t ∧
    selectOp .s (s.withWires (wiresAfter t s)) = .ok d ∧
    (let s2 := (s.withWires (wiresAfter t s)).withWires (wiresAfter d (s.withWires (wiresAfter t s)))
     selectOp .c s2 = .ok c ∧ selectOp .e s2 = .ok e ∧ selectOp .a s2 = .ok a) := by
  unfold selectTick at h
  split at h
  · cases h
  · next r hy =>
    rw [selectOp_y] at hy
    split at hy
    · cases hy
    · next h1 =>
      split at hy
      · cases hy
      · next h2 =>
        split at h
        · cases h
        · next t' ht =>
          dsimp only at h
          split at h
          · cases h
          · next d' hd =>
            split at h <;> cases h
            next hc he ha => exact ⟨by simpa using h1, by simpa using h2, ht, hd, hc, he, ha⟩

/-- A selected system operation is the one format Y selects. -/
theorem selectTick_system {s : State} {y : Instr} (h : selectTick s = .ok (.system y)) : selectOp .y s = .ok y := by
  unfold selectTick at h
  split at h
  · next hy => cases h; exact hy
  · split at h
    · cases h
    · dsimp only at h
      split at h
      · cases h
      · split at h <;> cases h

/-- What a step that answers a next state has done: a reset, a halted tick, or the five arms of its bundle on the pre-tick
snapshot and their commit. -/
theorem step_next_cases {s u : State} (h : step s = .next u) :
    s.cfg.Legal ∧
    ((s.beginTick.inp.rst = true ∧ u = s.beginTick.resetTick) ∨
     (s.beginTick.inp.rst = false ∧ s.overrun = true ∧ u = s.beginTick.stayHalted) ∨
     (s.beginTick.inp.rst = false ∧ s.overrun = false ∧ s.Representable ∧
      ∃ t d c e a b' d' c' e' f',
        selectTick s.beginTick = .ok (.arms t d c e a) ∧
        exec t s.beginTick = .next b' ∧
        exec d (s.beginTick.withWires b'.out) = .next d' ∧
        exec c (s.beginTick.withWires d'.out) = .next c' ∧
        exec e (s.beginTick.withWires d'.out) = .next e' ∧
        exec a (s.beginTick.withWires d'.out) = .next f' ∧
        u = commit s.beginTick b' d' c' e' f')) := by
  unfold step at h
  split at h
  · next hl =>
    refine ⟨hl, ?_⟩
    unfold tick at h
    split at h
    · cases h
    · next y hy =>
      have hs := selectTick_system hy
      rw [selectOp_y] at hs
      split at hs
      · next h1 =>
        cases hs
        cases h
        exact .inl ⟨h1, rfl⟩
      · next h1 =>
        split at hs
        · next h2 =>
          cases hs
          cases h
          exact .inr (.inl ⟨by simpa using h1, h2, rfl⟩)
        · cases hs
    · next t d c e a hb =>
      split at h
      · next hr =>
        obtain ⟨h1, h2, -⟩ := selectTick_arms hb
        simp only [runBundle, andThen_eq_next] at h
        obtain ⟨b', hb', d', hd', c', hc', e', he', f', hf', hu⟩ := h
        cases hu
        exact .inr (.inr ⟨h1, h2, hr, t, d, c, e, a, b', d', c', e', f', hb, hb', hd', hc', he', hf', rfl⟩)
      · cases h
  · cases h

/-- A run of `k + 1` steps whose first step answers `t` is the run of `k` steps from `t`. -/
theorem run_succ_of_next {k : Nat} {s t : State} (h : step s = .next t) :
    Host.Core.run Sys2Proof.core (k + 1) s = Host.Core.run Sys2Proof.core k t := by
  have h' : Sys2Proof.core.step s = .next t := h
  refine (Host.Core.run.eq_2 Sys2Proof.core s k).trans ?_
  rw [h']

/-- The first step of a run of `k + 1` steps that ends in a next state. -/
theorem run_succ_next {k : Nat} {s u : State} (h : Host.Core.run Sys2Proof.core (k + 1) s = .next u) :
    ∃ t, step s = .next t ∧ Host.Core.run Sys2Proof.core k t = .next u := by
  replace h := (Host.Core.run.eq_2 Sys2Proof.core s k).symm.trans h
  cases hs : Sys2Proof.core.step s with
  | next t => rw [hs] at h; exact ⟨t, hs, h⟩
  | fault r => rw [hs] at h; cases h
  | refused r => rw [hs] at h; cases h

end Sys2Proof.Machine
end

