-- ==== Sys2Proof/Laws/Components.lean ====
section
/-! SUPPORT. What the selected operation of each component does, as one function of the state: the component lemmas that
proofs about a whole tick cite. -/

namespace Sys2Proof.Machine

variable {s t : State} {i : Instr}

/-- What BTR does in a tick (40_bit_timing_recovery.md R102 to R107). -/
def btrEffect (s : State) : State :=
  if s.btr.state = .idle then s.driveBtr (if s.edge then .running else .idle) 0 s.edge false
  else if s.atPeriod then s.driveBtr (if s.keep then .running else .idle) 0 true false
  else s.driveBtr .running s.nextCnt false s.atSetup

theorem btr_effect (hi : selectOp .t s = .ok i) (he : exec i s = .next t) : t = btrEffect s := by
  rw [selectOp_t] at hi
  have hr : ¬ s.btr.state = .idle → s.btr.state = .running := by cases s.btr.state <;> simp
  unfold btrEffect
  by_cases h0 : s.btr.state = .idle
  · rw [if_pos h0] at hi ⊢
    cases h1 : s.edge <;> simp only [h1] at hi <;> cases hi <;> cases he <;> rfl
  · rw [if_neg h0] at hi ⊢
    cases h1 : s.atPeriod <;> cases h2 : s.atSetup <;> cases h3 : s.keep <;> simp only [h1, h2, h3] at hi <;>
      cases hi <;> cases he <;> simp [hr h0]

/-- What BDS does in a tick (41_bit_destuffer.md R122 to R127). -/
def bdsEffect (s : State) : State :=
  if s.framing then
    (if s.out.sample then
      s.driveBds s.rxBit (if s.differs || s.stuffPos then 0 else s.bds.runLen + 1) (!s.stuffPos)
        (s.stuffPos && !s.differs)
    else s.driveBds s.bds.lastBit s.bds.runLen false false)
  else s.driveBds true 0 s.out.sample false

theorem bds_effect (hi : selectOp .s s = .ok i) (he : exec i s = .next t) : t = bdsEffect s := by
  rw [selectOp_s] at hi
  unfold bdsEffect
  cases h1 : s.framing <;> cases h2 : s.out.sample <;> cases h3 : s.differs <;> cases h4 : s.stuffPos <;>
    simp only [h1, h2, h3, h4] at hi <;> cases hi <;> cases he <;> simp [h2]

/-- What CRC does in a tick (42_crc_engine.md R142 to R145). -/
def crcEffect (s : State) : State :=
  if s.crcClear then s.writeCrc 0#15
  else if s.crcEn then s.writeCrc (if s.fb then crcShiftedXor s.crc.reg else crcShifted s.crc.reg)
  else s

theorem crc_effect (hi : selectOp .c s = .ok i) (he : exec i s = .next t) : t = crcEffect s := by
  rw [selectOp_c] at hi
  unfold crcEffect
  cases h1 : s.crcClear <;> cases h2 : s.crcEn <;> cases h3 : s.fb <;> simp only [h1, h2, h3] at hi <;>
    cases hi <;> cases he <;> rfl

/-- What EM does in a tick (44_byte_emitter.md R201 to R203). -/
def emEffect (s : State) : State :=
  match s.em.pend with
  | [] => s.presentNothing
  | b :: rest => if s.inp.sinkReady then (s.presentByte b).pushByte b rest else s.presentByte b

theorem em_effect (hi : selectOp .e s = .ok i) (he : exec i s = .next t) : t = emEffect s := by
  rw [selectOp_e] at hi
  unfold emEffect
  cases hp : s.em.pend with
  | nil =>
    rw [State.blocked_false_iff.2 hp] at hi
    cases hi; cases he; rfl
  | cons b rest =>
    rw [State.blocked_iff.2 (by simp [hp])] at hi
    cases h1 : s.inp.sinkReady <;> simp only [h1] at hi <;> cases hi <;>
      simp only [exec, execEmPush, execEmStall, hp] at he <;> cases he <;> simp

/-- The pre-tick snapshot with the strobes of BTR and BDS: what CRC, EM and FA see (00_scope.md R3). -/
def State.wired (s : State) : State :=
  let s1 := s.withWires (btrEffect s).out
  s.withWires (bdsEffect s1).out

/-- A live tick that answers a next state: the effects of BTR, BDS, CRC and EM, FA's operation on the wired snapshot, and
the commit. -/
theorem live_tick {s u : State} (hr : s.beginTick.inp.rst = false) (ho : s.overrun = false) (h : step s = .next u) :
    s.cfg.Legal ∧ s.Representable ∧ ∃ a f, selectOp .a s.beginTick.wired = .ok a ∧
      exec a s.beginTick.wired = .next f ∧
      u = commit s.beginTick (btrEffect s.beginTick)
        (bdsEffect (s.beginTick.withWires (btrEffect s.beginTick).out)) (crcEffect s.beginTick.wired)
        (emEffect s.beginTick.wired) f := by
  obtain ⟨hl, h | h | ⟨-, -, hrep, t, d, c, e, a, b', d', c', e', f', hs, hb, hd, hc, he, hf, hu⟩⟩ := step_next_cases h
  · rw [hr] at h; cases h.1
  · rw [ho] at h; cases h.2.1
  · obtain ⟨-, -, ht, hd0, hc0, he0, ha0⟩ := selectTick_arms hs
    have w1 : wiresAfter t s.beginTick = b'.out := by rw [wiresAfter, hb]
    rw [w1] at hd0 hc0 he0 ha0
    have w2 : wiresAfter d (s.beginTick.withWires b'.out) = d'.out := by rw [wiresAfter, hd]
    rw [w2] at hc0 he0 ha0
    have eb := btr_effect ht hb
    subst eb
    have ed := bds_effect hd0 hd
    subst ed
    have ec := crc_effect hc0 hc
    have ee := em_effect he0 he
    subst ec ee
    exact ⟨hl, hrep, a, f', ha0, hf, hu⟩

end Sys2Proof.Machine
end

