-- ==== Sys2Proof/Laws/PerInstr.lean ====
section
/-! SUPPORT. The per-operation family: the encoder's word of each operation decodes to that operation. -/

namespace Sys2Proof.Laws.EncodeDecode

/-- The encoding of an operation reads back as that operation. -/
def Statement (i : Instr) : Prop := decode (encode i) = .ok i

theorem sysReset : Statement .sysReset := rfl
theorem sysHalt : Statement .sysHalt := rfl
theorem btrWait : Statement .btrWait := rfl
theorem btrStart : Statement .btrStart := rfl
theorem btrCount : Statement .btrCount := rfl
theorem btrSample : Statement .btrSample := rfl
theorem btrRoll : Statement .btrRoll := rfl
theorem btrStop : Statement .btrStop := rfl
theorem bdsBypass : Statement .bdsBypass := rfl
theorem bdsHold : Statement .bdsHold := rfl
theorem bdsPassNew : Statement .bdsPassNew := rfl
theorem bdsPassRun : Statement .bdsPassRun := rfl
theorem bdsDestuff : Statement .bdsDestuff := rfl
theorem bdsViolation : Statement .bdsViolation := rfl
theorem crcClear : Statement .crcClear := rfl
theorem crcHold : Statement .crcHold := rfl
theorem crcShift : Statement .crcShift := rfl
theorem crcShiftx : Statement .crcShiftx := rfl
theorem emEmpty : Statement .emEmpty := rfl
theorem emPush : Statement .emPush := rfl
theorem emStall : Statement .emStall := rfl
theorem faCancel : Statement .faCancel := rfl
theorem faIdle : Statement .faIdle := rfl
theorem faStart : Statement .faStart := rfl
theorem faOverrunStart : Statement .faOverrunStart := rfl
theorem faSof : Statement .faSof := rfl
theorem faIdShift : Statement .faIdShift := rfl
theorem faIdDone : Statement .faIdDone := rfl
theorem faHoldId : Statement .faHoldId := rfl
theorem faOverrunId : Statement .faOverrunId := rfl
theorem faCtlShift : Statement .faCtlShift := rfl
theorem faCtlDoneEmpty : Statement .faCtlDoneEmpty := rfl
theorem faCtlDoneData : Statement .faCtlDoneData := rfl
theorem faCtlDoneIllegal : Statement .faCtlDoneIllegal := rfl
theorem faHoldCtl : Statement .faHoldCtl := rfl
theorem faOverrunCtl : Statement .faOverrunCtl := rfl
theorem faDataShift : Statement .faDataShift := rfl
theorem faDataByte : Statement .faDataByte := rfl
theorem faDataLast : Statement .faDataLast := rfl
theorem faHoldData : Statement .faHoldData := rfl
theorem faOverrunData : Statement .faOverrunData := rfl
theorem faCrcShift : Statement .faCrcShift := rfl
theorem faCrcDone : Statement .faCrcDone := rfl
theorem faHoldCrc : Statement .faHoldCrc := rfl
theorem faOverrunCrc : Statement .faOverrunCrc := rfl
theorem faCheckWait : Statement .faCheckWait := rfl
theorem faCheck : Statement .faCheck := rfl
theorem faOverrunCheck : Statement .faOverrunCheck := rfl
theorem faGapCount : Statement .faGapCount := rfl
theorem faGapDone : Statement .faGapDone := rfl
theorem faHoldGap : Statement .faHoldGap := rfl
theorem faOverrunGap : Statement .faOverrunGap := rfl

end Sys2Proof.Laws.EncodeDecode
end

