-- ==== Sys2Proof/Tests/Slice0.lean ====
section
/-! SUPPORT. The model's own tests, and a witness for the hypotheses of every statement. Expected values come from
30_encoding.md R80 and 95_test_vectors.md, named at each test. -/

namespace Sys2Proof.Tests

open Sys2Proof Sys2Proof.Machine

/-- The state a step answers. -/
def after (s : State) : State :=
  match step s with
  | .next t => t
  | .fault _ => s
  | .refused _ => s

/-- A step answers a next state. -/
def completes (s : State) : Bool :=
  match step s with
  | .next _ => true
  | .fault _ => false
  | .refused _ => false

theorem step_after {s : State} (h : completes s = true) : step s = .next (after s) := by
  unfold completes at h
  unfold after
  split <;> simp_all

/-- The operations the next tick selects. -/
def selects (s : State) : List Instr :=
  match selectTick s.beginTick with
  | .ok (.system y) => [y]
  | .ok (.arms t d c e a) => [t, d, c, e, a]
  | .error _ => []

/-- Reset registers but for FA's and BTR's: inside a frame, the next input word `w`. -/
def inFrame (phase : Phase) (cnt byteCnt : Nat) (shreg : Word15) (btrCnt : Nat) (w : TickWord) : State :=
  { State.reset with
    btr := { state := .running, cnt := btrCnt, prevDom := false }
    fa := { phase := phase, cnt := cnt, byteCnt := byteCnt, shreg := shreg, sofPending := false, stuffFlag := false }
    stim := [w] }

/-- The same with a byte still waiting in the emitter. -/
def blockedFrame (phase : Phase) (cnt byteCnt : Nat) (w : TickWord) : State :=
  { inFrame phase cnt byteCnt 0 6 w with em := { pend := [1#8] } }

/-- A tick that has begun: the inputs are there, `sample` and `bit_ready` as given. -/
def begun (s : State) (inp : Inputs) (sample bitReady : Bool) : State :=
  { s with inp := inp, out := { Outputs.zero with sample := sample, bitReady := bitReady } }

/-- `run = 1`, `sink_ready = 1`, the line as given. -/
def runOn (rxDom : Bool) : Inputs := { rst := false, run := true, sinkReady := true, rxDom := rxDom }

/-! ### Well-formedness refuses -/

theorem test_config_setup_zero_refused : ¬ Config.Legal { setupTicks := 0, periodTicks := 10, ifgBits := 10 } := by decide
theorem test_config_setup_not_below_period_refused :
    ¬ Config.Legal { setupTicks := 10, periodTicks := 10, ifgBits := 10 } := by decide
theorem test_config_gap_zero_refused : ¬ Config.Legal { setupTicks := 7, periodTicks := 10, ifgBits := 0 } := by decide
theorem test_config_gap_too_long_refused : ¬ Config.Legal { setupTicks := 7, periodTicks := 10, ifgBits := 64 } := by decide
theorem test_config_bounds_accepted : Config.Legal { setupTicks := 1, periodTicks := 2, ifgBits := 63 } := by decide
theorem test_selector_of_wrong_width_refused : ¬ Selector.WellFormed ⟨.t, [true, false, true, false]⟩ := by decide
theorem test_bundle_with_a_component_in_the_system_slot_refused : ¬ Bundle.WellFormed (.system .btrWait) := by decide
theorem test_bundle_with_swapped_slots_refused :
    ¬ Bundle.WellFormed (.arms .bdsHold .btrWait .crcHold .emEmpty .faIdle) := by decide

/-! ### Decoding: a word written from each row's pattern in 30_encoding.md R80, its either-value bits set to 1 -/

theorem test_decode_format_y :
    decode ⟨.y, bitsMsbFirst 2 0b11⟩ = .ok .sysReset ∧
    decode ⟨.y, bitsMsbFirst 2 0b01⟩ = .ok .sysHalt := by decide
theorem test_decode_format_t :
    decode ⟨.t, bitsMsbFirst 5 0b00111⟩ = .ok .btrWait ∧
    decode ⟨.t, bitsMsbFirst 5 0b01111⟩ = .ok .btrStart ∧
    decode ⟨.t, bitsMsbFirst 5 0b11001⟩ = .ok .btrCount ∧
    decode ⟨.t, bitsMsbFirst 5 0b11101⟩ = .ok .btrSample ∧
    decode ⟨.t, bitsMsbFirst 5 0b11011⟩ = .ok .btrRoll ∧
    decode ⟨.t, bitsMsbFirst 5 0b11010⟩ = .ok .btrStop := by decide
theorem test_decode_format_s :
    decode ⟨.s, bitsMsbFirst 4 0b0111⟩ = .ok .bdsBypass ∧
    decode ⟨.s, bitsMsbFirst 4 0b1011⟩ = .ok .bdsHold ∧
    decode ⟨.s, bitsMsbFirst 4 0b1110⟩ = .ok .bdsPassNew ∧
    decode ⟨.s, bitsMsbFirst 4 0b1100⟩ = .ok .bdsPassRun ∧
    decode ⟨.s, bitsMsbFirst 4 0b1111⟩ = .ok .bdsDestuff ∧
    decode ⟨.s, bitsMsbFirst 4 0b1101⟩ = .ok .bdsViolation := by decide
theorem test_decode_format_c :
    decode ⟨.c, bitsMsbFirst 3 0b111⟩ = .ok .crcClear ∧
    decode ⟨.c, bitsMsbFirst 3 0b001⟩ = .ok .crcHold ∧
    decode ⟨.c, bitsMsbFirst 3 0b010⟩ = .ok .crcShift ∧
    decode ⟨.c, bitsMsbFirst 3 0b011⟩ = .ok .crcShiftx := by decide
theorem test_decode_format_e :
    decode ⟨.e, bitsMsbFirst 2 0b01⟩ = .ok .emEmpty ∧
    decode ⟨.e, bitsMsbFirst 2 0b11⟩ = .ok .emPush ∧
    decode ⟨.e, bitsMsbFirst 2 0b10⟩ = .ok .emStall := by decide
theorem test_decode_format_a_part1 :
    decode ⟨.a, bitsMsbFirst 12 0b011111111111⟩ = .ok .faCancel ∧
    decode ⟨.a, bitsMsbFirst 12 0b100001111111⟩ = .ok .faIdle ∧
    decode ⟨.a, bitsMsbFirst 12 0b100011011111⟩ = .ok .faStart ∧
    decode ⟨.a, bitsMsbFirst 12 0b100011111111⟩ = .ok .faOverrunStart ∧
    decode ⟨.a, bitsMsbFirst 12 0b100111011111⟩ = .ok .faSof ∧
    decode ⟨.a, bitsMsbFirst 12 0b100111000111⟩ = .ok .faIdShift ∧
    decode ⟨.a, bitsMsbFirst 12 0b100111001111⟩ = .ok .faIdDone ∧
    decode ⟨.a, bitsMsbFirst 12 0b100110111111⟩ = .ok .faHoldId := by decide
theorem test_decode_format_a_part2 :
    decode ⟨.a, bitsMsbFirst 12 0b100111111111⟩ = .ok .faOverrunId ∧
    decode ⟨.a, bitsMsbFirst 12 0b101011010111⟩ = .ok .faCtlShift ∧
    decode ⟨.a, bitsMsbFirst 12 0b101011011001⟩ = .ok .faCtlDoneEmpty ∧
    decode ⟨.a, bitsMsbFirst 12 0b101011011011⟩ = .ok .faCtlDoneData ∧
    decode ⟨.a, bitsMsbFirst 12 0b101011011101⟩ = .ok .faCtlDoneIllegal ∧
    decode ⟨.a, bitsMsbFirst 12 0b101010111111⟩ = .ok .faHoldCtl ∧
    decode ⟨.a, bitsMsbFirst 12 0b101011111111⟩ = .ok .faOverrunCtl ∧
    decode ⟨.a, bitsMsbFirst 12 0b101111010111⟩ = .ok .faDataShift := by decide
theorem test_decode_format_a_part3 :
    decode ⟨.a, bitsMsbFirst 12 0b101111011110⟩ = .ok .faDataByte ∧
    decode ⟨.a, bitsMsbFirst 12 0b101111011111⟩ = .ok .faDataLast ∧
    decode ⟨.a, bitsMsbFirst 12 0b101110111111⟩ = .ok .faHoldData ∧
    decode ⟨.a, bitsMsbFirst 12 0b101111111111⟩ = .ok .faOverrunData ∧
    decode ⟨.a, bitsMsbFirst 12 0b110011010111⟩ = .ok .faCrcShift ∧
    decode ⟨.a, bitsMsbFirst 12 0b110011011111⟩ = .ok .faCrcDone ∧
    decode ⟨.a, bitsMsbFirst 12 0b110010111111⟩ = .ok .faHoldCrc ∧
    decode ⟨.a, bitsMsbFirst 12 0b110011111111⟩ = .ok .faOverrunCrc := by decide
theorem test_decode_format_a_part4 :
    decode ⟨.a, bitsMsbFirst 12 0b110110111111⟩ = .ok .faCheckWait ∧
    decode ⟨.a, bitsMsbFirst 12 0b110111011111⟩ = .ok .faCheck ∧
    decode ⟨.a, bitsMsbFirst 12 0b110111111111⟩ = .ok .faOverrunCheck ∧
    decode ⟨.a, bitsMsbFirst 12 0b111011010111⟩ = .ok .faGapCount ∧
    decode ⟨.a, bitsMsbFirst 12 0b111011011111⟩ = .ok .faGapDone ∧
    decode ⟨.a, bitsMsbFirst 12 0b111010111111⟩ = .ok .faHoldGap ∧
    decode ⟨.a, bitsMsbFirst 12 0b111011111111⟩ = .ok .faOverrunGap := by decide
theorem test_decode_refuses :
    decode ⟨.y, [false, false]⟩ = .error .noSystemRow ∧
    decode ⟨.t, bitsMsbFirst 5 0b10110⟩ = .error .unreachablePattern ∧
    decode ⟨.t, bitsMsbFirst 5 0b11111⟩ = .error .unreachablePattern ∧
    decode ⟨.a, bitsMsbFirst 12 0b111100000000⟩ = .error .unreachablePattern ∧
    decode ⟨.a, bitsMsbFirst 12 0b101001001110⟩ = .error .unreachablePattern ∧
    decode ⟨.c, [true, false]⟩ = .error .wrongWidth := by decide

/-- The table's "match" words of the formats T, S, C (spec/opcode_table.json) are the encoder's. -/
theorem test_encode_match_words :
    natOfBits (encode .sysReset).word = 0x2 ∧ natOfBits (encode .btrWait).word = 0x00 ∧
    natOfBits (encode .btrStart).word = 0x08 ∧ natOfBits (encode .btrCount).word = 0x10 ∧
    natOfBits (encode .btrSample).word = 0x14 ∧ natOfBits (encode .btrRoll).word = 0x13 ∧
    natOfBits (encode .btrStop).word = 0x12 ∧ natOfBits (encode .bdsBypass).word = 0x0 ∧
    natOfBits (encode .bdsHold).word = 0x8 ∧ natOfBits (encode .bdsPassNew).word = 0xE ∧
    natOfBits (encode .bdsPassRun).word = 0xC ∧ natOfBits (encode .bdsDestuff).word = 0xF ∧
    natOfBits (encode .bdsViolation).word = 0xD ∧ natOfBits (encode .crcClear).word = 0x4 ∧
    natOfBits (encode .crcHold).word = 0x0 ∧ natOfBits (encode .crcShift).word = 0x2 ∧
    natOfBits (encode .crcShiftx).word = 0x3 ∧ natOfBits (encode .emPush).word = 0x3 ∧
    natOfBits (encode .faCtlDoneIllegal).word = 0xA4C ∧ natOfBits (encode .faDataLast).word = 0xB49 ∧
    natOfBits (encode .faCheck).word = 0xD00 := by decide

theorem test_decodeTableWord :
    decodeTableWord 16 0xA4C = some .faCtlDoneIllegal ∧ decodeTableWord 12 0xD20 = some .faCheckWait ∧
    decodeTableWord 8 0x14 = some .btrSample ∧ decodeTableWord 8 0xF = some .bdsDestuff ∧
    decodeTableWord 16 0xF00 = none := by decide

/-- `arrange` makes the next tick of the reset machine run the operation it is given. -/
theorem test_arrange_systems_and_components :
    ∀ i ∈ rowsOf .y ++ rowsOf .t ++ rowsOf .s ++ rowsOf .c ++ rowsOf .e,
      i ∈ selects (State.reset.arrange i) ∧ completes (State.reset.arrange i) = true := by decide
theorem test_arrange_assembler :
    ∀ i ∈ rowsOf .a, i ∈ selects (State.reset.arrange i) ∧ completes (State.reset.arrange i) = true := by decide
theorem test_withFetchWord :
    (selects (State.reset.withFetchWord 16 0xC48)).getLast? = some .faCrcDone ∧
    State.reset.withFetchWord 16 0xF00 = State.reset := by decide

/-! ### One tick each, from 95_test_vectors.md -/

/-- V-SYS-1: from inside a frame, word `F`. -/
theorem test_sys_reset_in_frame :
    let s : State := inFrame .data 7 1 0x0554 6 0xF
    .sysReset ∈ selects s ∧
    (after s).toRegs = Regs.reset ∧
    (after s).out = Outputs.zero := by decide
/-- V-SYS-3: the halt, whatever the inputs. -/
theorem test_sys_halt :
    let s : State := { State.reset with overrun := true, stim := [7] }
    .sysHalt ∈ selects s ∧
    (after s).overrun = true ∧
    (after s).btr = Regs.reset.btr ∧
    (after s).out = { Outputs.zero with overrun := true } := by decide
/-- V-BTR-1 tick 0. -/
theorem test_btr_wait :
    let s : State := { State.reset with stim := [6] }
    .btrWait ∈ selects s ∧
    (after s).btr = ⟨.idle, 0, false⟩ ∧
    (after s).out.boundary = false := by decide
/-- V-BTR-4: a bus dominant at the first tick is a start edge. -/
theorem test_btr_start :
    let s : State := { State.reset with stim := [7] }
    .btrStart ∈ selects s ∧
    (after s).btr = ⟨.running, 0, true⟩ ∧
    (after s).out.boundary = true := by decide
/-- V-BTR-5: a dominant level already present is not an edge. -/
theorem test_btr_level_is_no_edge :
    let s : State := { State.reset with btr := ⟨.idle, 0, true⟩, stim := [7] }
    .btrWait ∈ selects s ∧
    (after s).btr = ⟨.idle, 0, true⟩ := by decide
/-- V-BTR-1 tick 11. -/
theorem test_btr_count :
    let s : State := inFrame .arbitrationId 11 0 0 7 7
    .btrCount ∈ selects s ∧
    (after s).btr = ⟨.running, 8, true⟩ ∧
    (after s).out.sample = false := by decide
/-- V-BTR-1 tick 10. -/
theorem test_btr_sample :
    let s : State := inFrame .arbitrationId 11 0 0 6 7
    .btrSample ∈ selects s ∧
    (after s).btr = ⟨.running, 7, true⟩ ∧
    (after s).out.sample = true := by decide
/-- V-BTR-1 tick 13. -/
theorem test_btr_roll :
    let s : State := inFrame .arbitrationId 11 0 0 9 6
    .btrRoll ∈ selects s ∧
    (after s).btr = ⟨.running, 0, false⟩ ∧
    (after s).out.boundary = true := by decide
/-- V-BTR-2 tick 12. -/
theorem test_btr_stop :
    let s : State := { State.reset with btr := ⟨.running, 9, true⟩, stim := [2] }
    .btrStop ∈ selects s ∧
    (after s).btr = ⟨.idle, 0, false⟩ ∧
    (after s).out.boundary = true := by decide
/-- P1 tick 530: a dominant bit of the gap passes, no run is kept. -/
theorem test_bds_bypass :
    let s : State := inFrame .idleWait 9 0 0 6 7
    .bdsBypass ∈ selects s ∧
    (after s).bds = ⟨true, 0⟩ ∧
    (after s).out.bitReady = true := by decide
/-- P1 tick 11. -/
theorem test_bds_hold :
    let s : State := { inFrame .arbitrationId 11 0 0 7 7 with bds := ⟨false, 3⟩ }
    .bdsHold ∈ selects s ∧
    (after s).bds = ⟨false, 3⟩ ∧
    (after s).out.bitReady = false := by decide
/-- V-BDS-4 index 7: a `1` after a run of `0`. -/
theorem test_bds_pass_new :
    let s : State := { inFrame .data 7 1 0 6 6 with bds := ⟨false, 1⟩ }
    .bdsPassNew ∈ selects s ∧
    (after s).bds = ⟨true, 0⟩ ∧
    (after s).out.bitReady = true := by decide
/-- V-BDS-6: the fourth leading `1`. -/
theorem test_bds_pass_run :
    let s : State := { inFrame .data 7 1 0 6 6 with bds := ⟨true, 3⟩ }
    .bdsPassRun ∈ selects s ∧
    (after s).bds = ⟨true, 4⟩ ∧
    (after s).out.bitReady = true := by decide
/-- P1 tick 180 (V-FA-15). -/
theorem test_bds_destuff :
    let s : State := { inFrame .arbitrationControl 2 0 0x2460 6 6 with bds := ⟨false, 4⟩, crc := ⟨0x1A16⟩ }
    .bdsDestuff ∈ selects s ∧
    (after s).bds = ⟨true, 0⟩ ∧
    (after s).out.bitReady = false ∧
    (after s).crc.reg = 0x71B5 ∧
    (after s).fa.cnt = 2 ∧
    (after s).fa.shreg = 0x2460 := by decide
/-- P3 tick 180. -/
theorem test_bds_violation :
    let s : State := { inFrame .arbitrationControl 2 0 0x2460 6 7 with bds := ⟨false, 4⟩, crc := ⟨0x1A16⟩ }
    .bdsViolation ∈ selects s ∧
    (after s).out.stuffError = true ∧
    (after s).bds.runLen = 0 ∧
    (after s).crc.reg = 0x342C ∧
    (after s).fa.stuffFlag = true ∧
    (after s).out.stuffFlag = false := by decide
/-- 2.3: `CRC.CLEAR` gives 0 from any value. -/
theorem test_crc_clear :
    let s : State := { State.reset with crc := ⟨0x4599⟩, stim := [6] }
    .crcClear ∈ selects s ∧
    (after s).crc.reg = 0 := by decide
/-- 2.3: the gap holds the value. -/
theorem test_crc_hold :
    let s : State := { inFrame .idleWait 9 0 0 6 7 with crc := ⟨0x4599⟩ }
    .crcHold ∈ selects s ∧
    (after s).crc.reg = 0x4599 := by decide
/-- 2.3: `0x7FFF`, bit 1. -/
theorem test_crc_shift :
    let s : State := { inFrame .data 7 1 0 6 6 with crc := ⟨0x7FFF⟩ }
    .crcShift ∈ selects s ∧
    (after s).crc.reg = 0x7FFE := by decide
/-- 2.3: `0x3FFF`, bit 1. -/
theorem test_crc_shiftx :
    let s : State := { inFrame .data 7 1 0 6 6 with crc := ⟨0x3FFF⟩ }
    .crcShiftx ∈ selects s ∧
    (after s).crc.reg = 0x3A67 := by decide
/-- V-EM-3. -/
theorem test_em_empty :
    let s : State := { State.reset with stim := [4] }
    .emEmpty ∈ selects s ∧
    (after s).out.byteValid = false ∧
    (after s).stream = [] := by decide
/-- V-EM-1 tick 121. -/
theorem test_em_push :
    let s : State := { inFrame .arbitrationControl 7 0 0x0123 7 6 with em := ⟨[0x01, 0x23]⟩ }
    .emPush ∈ selects s ∧
    (after s).out.byteValid = true ∧
    (after s).out.byteData = 0x01 ∧
    (after s).em.pend = [0x23] ∧
    (after s).stream = [0x01] := by decide
/-- V-EM-2 tick 121. -/
theorem test_em_stall :
    let s : State := { inFrame .arbitrationControl 7 0 0x0123 7 4 with em := ⟨[0x01, 0x23]⟩ }
    .emStall ∈ selects s ∧
    (after s).out.byteValid = true ∧
    (after s).out.byteData = 0x01 ∧
    (after s).em.pend = [0x01, 0x23] ∧
    (after s).stream = [] := by decide
/-- V-SYS-4 tick 300. -/
theorem test_fa_cancel :
    let s : State := { inFrame .data 7 1 0x0554 6 2 with bds := ⟨false, 1⟩, crc := ⟨0x31EA⟩ }
    .faCancel ∈ selects s ∧
    (after s).fa = Regs.reset.fa ∧
    (after s).crc.reg = 0x264D ∧
    (after s).bds.runLen = 0 := by decide
/-- E7. -/
theorem test_fa_idle :
    let s : State := { State.reset with stim := [6] }
    .faIdle ∈ selects s ∧
    (after s).toRegs = Regs.reset ∧
    (after s).out = Outputs.zero := by decide
/-- P1 tick 3. -/
theorem test_fa_start :
    let s : State := { State.reset with stim := [7] }
    .faStart ∈ selects s ∧
    (after s).fa = ⟨.arbitrationId, 11, 0, 0, true, false⟩ ∧
    (after s).crc.reg = 0 := by decide
/-- P1 tick 10. -/
theorem test_fa_sof :
    let s : State := { inFrame .arbitrationId 11 0 0 6 7 with fa := ⟨.arbitrationId, 11, 0, 0, true, false⟩ }
    .faSof ∈ selects s ∧
    (after s).fa = ⟨.arbitrationId, 11, 0, 0, false, false⟩ := by decide
/-- P1 tick 110. -/
theorem test_fa_id_shift :
    let s : State := inFrame .arbitrationId 2 0 0x0048 6 6
    .faIdShift ∈ selects s ∧
    (after s).fa = ⟨.arbitrationId, 1, 0, 0x0091, false, false⟩ := by decide
/-- P1 tick 120. -/
theorem test_fa_id_done :
    let s : State := inFrame .arbitrationId 1 0 0x0091 6 6
    .faIdDone ∈ selects s ∧
    (after s).fa = ⟨.arbitrationControl, 7, 0, 0x0123, false, false⟩ ∧
    (after s).em.pend = [0x01, 0x23] ∧
    (after s).out.byteValid = false := by decide
/-- P1 tick 190. -/
theorem test_fa_ctl_shift :
    let s : State := inFrame .arbitrationControl 2 0 0x2460 6 6
    .faCtlShift ∈ selects s ∧
    (after s).fa = ⟨.arbitrationControl, 1, 0, 0x48C1, false, false⟩ := by decide
/-- P3 contrast tick 200: the length code reads 0. -/
theorem test_fa_ctl_done_empty :
    let s : State := inFrame .arbitrationControl 1 0 0x48C0 6 7
    .faCtlDoneEmpty ∈ selects s ∧
    (after s).fa.phase = .crc ∧
    (after s).fa.cnt = 15 ∧
    (after s).em.pend = [0x00] := by decide
/-- P1 tick 200. -/
theorem test_fa_ctl_done_data :
    let s : State := inFrame .arbitrationControl 1 0 0x48C1 6 7
    .faCtlDoneData ∈ selects s ∧
    (after s).fa = ⟨.data, 8, 2, 0x1182, false, false⟩ ∧
    (after s).em.pend = [0x02] := by decide
/-- V-FA-11: length code 8 is legal. -/
theorem test_fa_ctl_done_data_eight :
    let s : State := inFrame .arbitrationControl 1 0 0x0004 6 7
    .faCtlDoneData ∈ selects s ∧
    (after s).fa.byteCnt = 8 ∧
    (after s).em.pend = [0x08] := by decide
/-- V-FA-10: length code 9. -/
theorem test_fa_ctl_done_illegal :
    let s : State := inFrame .arbitrationControl 1 0 0x0004 6 6
    .faCtlDoneIllegal ∈ selects s ∧
    (after s).fa.phase = .idleWait ∧
    (after s).fa.cnt = 10 ∧
    (after s).em.pend = [0x09] := by decide
/-- P1 tick 270. -/
theorem test_fa_data_shift :
    let s : State := inFrame .data 2 2 0x60AA 6 6
    .faDataShift ∈ selects s ∧
    (after s).fa = ⟨.data, 1, 2, 0x4155, false, false⟩ := by decide
/-- P1 tick 280. -/
theorem test_fa_data_byte :
    let s : State := inFrame .data 1 2 0x4155 6 7
    .faDataByte ∈ selects s ∧
    (after s).fa = ⟨.data, 8, 1, 0x02AA, false, false⟩ ∧
    (after s).em.pend = [0xAA] := by decide
/-- P1 tick 360. -/
theorem test_fa_data_last :
    let s : State := inFrame .data 1 1 0x552A 6 6
    .faDataLast ∈ selects s ∧
    (after s).fa = ⟨.crc, 15, 0, 0x2A55, false, false⟩ ∧
    (after s).em.pend = [0x55] := by decide
/-- P1 tick 370. -/
theorem test_fa_crc_shift :
    let s : State := inFrame .crc 15 0 0x2A55 6 7
    .faCrcShift ∈ selects s ∧
    (after s).fa = ⟨.crc, 14, 0, 0x54AA, false, false⟩ := by decide
/-- P1 tick 510. -/
theorem test_fa_crc_done :
    let s : State := inFrame .crc 1 0 0x4292 6 7
    .faCrcDone ∈ selects s ∧
    (after s).fa = ⟨.crcCheck, 0, 0, 0x0524, false, false⟩ ∧
    (after s).em.pend = [0x05, 0x24] := by decide
/-- V-EM-1 tick 512. -/
theorem test_fa_check_wait :
    let s : State := { inFrame .crcCheck 0 0 0x0524 8 7 with em := ⟨[0x24]⟩ }
    .faCheckWait ∈ selects s ∧
    (after s).fa.phase = .crcCheck ∧
    (after s).em.pend = [] := by decide
/-- P1 tick 513: the register is 0. -/
theorem test_fa_check_pass :
    let s : State := inFrame .crcCheck 0 0 0x0524 9 6
    .faCheck ∈ selects s ∧
    (after s).fa = ⟨.idleWait, 10, 0, 0x0524, false, false⟩ ∧
    (after s).em.pend = [0x01] := by decide
/-- V-FA-17: the register is not 0. -/
theorem test_fa_check_fail :
    let s : State := { inFrame .crcCheck 0 0 0x0524 9 6 with crc := ⟨0x4099⟩ }
    .faCheck ∈ selects s ∧
    (after s).em.pend = [0x00] := by decide
/-- P1 tick 530. -/
theorem test_fa_gap_count :
    let s : State := inFrame .idleWait 9 0 0x0524 6 7
    .faGapCount ∈ selects s ∧
    (after s).fa = ⟨.idleWait, 8, 0, 0x0524, false, false⟩ := by decide
/-- P1 tick 610. -/
theorem test_fa_gap_done :
    let s : State := inFrame .idleWait 1 0 0x0524 6 6
    .faGapDone ∈ selects s ∧
    (after s).fa = Regs.reset.fa := by decide
/-- V-EM-1: no bit, no change. -/
theorem test_fa_hold_id :
    let s : State := inFrame .arbitrationId 2 0 0x0123 7 7
    .faHoldId ∈ selects s ∧
    (after s).fa = ⟨.arbitrationId, 2, 0, 0x0123, false, false⟩ := by decide
/-- V-EM-1: no bit, no change. -/
theorem test_fa_hold_ctl :
    let s : State := inFrame .arbitrationControl 2 0 0x0123 7 7
    .faHoldCtl ∈ selects s ∧
    (after s).fa = ⟨.arbitrationControl, 2, 0, 0x0123, false, false⟩ := by decide
/-- V-EM-1: no bit, no change. -/
theorem test_fa_hold_data :
    let s : State := inFrame .data 2 1 0x0123 7 7
    .faHoldData ∈ selects s ∧
    (after s).fa = ⟨.data, 2, 1, 0x0123, false, false⟩ := by decide
/-- V-EM-1: no bit, no change. -/
theorem test_fa_hold_crc :
    let s : State := inFrame .crc 2 0 0x0123 7 7
    .faHoldCrc ∈ selects s ∧
    (after s).fa = ⟨.crc, 2, 0, 0x0123, false, false⟩ := by decide
/-- V-EM-1: no bit, no change. -/
theorem test_fa_hold_gap :
    let s : State := inFrame .idleWait 2 0 0x0123 7 6
    .faHoldGap ∈ selects s ∧
    (after s).fa = ⟨.idleWait, 2, 0, 0x0123, false, false⟩ := by decide
/-- 43_frame_assembler.md R183. -/
theorem test_fa_overrun_id :
    let s : State := blockedFrame .arbitrationId 3 0 4
    .faOverrunId ∈ selects s ∧
    (after s).toRegs = { Regs.reset with overrun := true } ∧
    (after s).out.overrun = true ∧
    (after s).stream = [] ∧
    (after s).out.byteValid = true := by decide
/-- V-EM-4 tick 130. -/
theorem test_fa_overrun_ctl :
    let s : State := blockedFrame .arbitrationControl 7 0 4
    .faOverrunCtl ∈ selects s ∧
    (after s).toRegs = { Regs.reset with overrun := true } ∧
    (after s).out.overrun = true ∧
    (after s).stream = [] ∧
    (after s).out.byteValid = true := by decide
/-- 43_frame_assembler.md R183. -/
theorem test_fa_overrun_data :
    let s : State := blockedFrame .data 3 1 4
    .faOverrunData ∈ selects s ∧
    (after s).toRegs = { Regs.reset with overrun := true } ∧
    (after s).out.overrun = true ∧
    (after s).stream = [] ∧
    (after s).out.byteValid = true := by decide
/-- 43_frame_assembler.md R183. -/
theorem test_fa_overrun_crc :
    let s : State := blockedFrame .crc 3 0 4
    .faOverrunCrc ∈ selects s ∧
    (after s).toRegs = { Regs.reset with overrun := true } ∧
    (after s).out.overrun = true ∧
    (after s).stream = [] ∧
    (after s).out.byteValid = true := by decide
/-- V-EM-5: the handshake of the overrun tick stands. -/
theorem test_fa_overrun_check :
    let s : State := blockedFrame .crcCheck 0 0 6
    .faOverrunCheck ∈ selects s ∧
    (after s).toRegs = { Regs.reset with overrun := true } ∧
    (after s).out.overrun = true ∧
    (after s).stream = [1#8] := by decide
/-- V-FA-18. -/
theorem test_fa_overrun_gap :
    let s : State := blockedFrame .idleWait 3 0 4
    .faOverrunGap ∈ selects s ∧
    (after s).toRegs = { Regs.reset with overrun := true } ∧
    (after s).out.overrun = true ∧
    (after s).stream = [] ∧
    (after s).out.byteValid = true := by decide
/-- V-SYS-5 tick 193. -/
theorem test_fa_overrun_start :
    let s : State := { State.reset with em := ⟨[0x01, 0x23]⟩, stim := [5] }
    .faOverrunStart ∈ selects s ∧
    (after s).toRegs = { Regs.reset with overrun := true } ∧
    (after s).out.boundary = true ∧
    (after s).stream = [] := by decide

/-! ### Timing profiles, stuffing, CRC sequences (95_test_vectors.md E1, 2.2, 2.3) -/

theorem test_timing_profiles :
    (TimingProfile.ofRates 10000000 1000000).setupTicks = 7 ∧ (TimingProfile.ofRates 10000000 1000000).periodTicks = 10 ∧
    (TimingProfile.ofRates 40000000 500000).setupTicks = 56 ∧ (TimingProfile.ofRates 40000000 500000).periodTicks = 80 ∧
    (TimingProfile.ofRates 48000000 1000000).setupTicks = 28 ∧ (TimingProfile.ofRates 48000000 1000000).periodTicks = 40 ∧
    ¬ ((TimingProfile.ofRates 5000000 1000000).config 10).Legal := by decide

/-- 30_encoding.md R85: the complement also follows a fifth bit that is the last. -/
theorem test_stuff_five_zeros : stuff (List.replicate 5 false) = bitsMsbFirst 6 0b000001 := by decide
/-- V-BDS-9. -/
theorem test_destuffer_fifteen_zeros :
    (feedDestuffer (inFrame .data 7 1 0 6 6) (bitsMsbFirst 17 0b00000100000100000)).map (fun r => (r.1, r.2.1)) =
      some (List.replicate 15 false, 0) := by decide
/-- RF: its 51 raw bits. -/
theorem test_stuff_reference_frame :
    stuff (frameBits 0x123 2 [0xAA, 0x55] 0x0524) =
      bitsMsbFirst 51 0b000100100011000001101010101001010101000010100100100 := by decide
/-- V-BDS-4. -/
theorem test_destuffer_violation :
    (feedDestuffer (inFrame .data 7 1 0 6 6) (bitsMsbFirst 8 0b00000001)).map (fun r => (r.1, r.2.1)) =
      some (bitsMsbFirst 7 0b0000001, 1) := by decide
/-- 2.3: message `1011001` gives `0x6FCC`. -/
theorem test_crc_message : feedCrc (inFrame .data 7 1 0 6 6) (bitsMsbFirst 7 0b1011001) = some 0x6FCC := by decide
/-- The record of RF (30_encoding.md R73). -/
theorem test_record_bytes :
    (Record.full 0x123 [0xAA, 0x55] 0x0524 true).bytes = [0x01, 0x23, 0x02, 0xAA, 0x55, 0x05, 0x24, 0x01] := by decide
/-- `RESET` and `IDLE 2` with the suffixes (30_encoding.md R84). -/
theorem test_stimulus_words :
    resetWords ++ withSinkLow (idleTicks 1) ++ withRunLow (idleTicks 1) = [0xE, 0x4, 0x2] := by decide

/-! ### Witnesses: the hypotheses of each statement can be met together -/

theorem witness_ResetTickRestoresEveryRegister :
    let s : State := inFrame .data 7 1 0x0554 6 0xE
    s.cfg.Legal ∧ s.beginTick.inp.rst = true := by decide
theorem witness_HaltedTickChangesNothing :
    let s : State := { State.reset with overrun := true, stim := [7] }
    s.cfg.Legal ∧ s.beginTick.inp.rst = false ∧ s.overrun = true := by decide
theorem witness_BtrIdleOperations_wait :
    let s : State := begun { State.reset with btr := ⟨.idle, 0, true⟩ } (runOn true) false false
    s.btr.state = .idle ∧ (s.btr.prevDom = true ∨ s.inp.rxDom = false) := by decide
theorem witness_BtrIdleOperations_start :
    let s : State := begun State.reset (runOn true) false false
    s.btr.state = .idle ∧ s.btr.prevDom = false ∧ s.inp.rxDom = true := by decide
theorem witness_BtrCountAndSample_count :
    let s : State := inFrame .data 7 1 0 8 6
    s.btr.state = .running ∧ s.btr.cnt + 1 < s.cfg.periodTicks ∧ s.btr.cnt + 1 ≠ s.cfg.setupTicks := by decide
theorem witness_BtrCountAndSample_sample :
    let s : State := inFrame .data 7 1 0 6 6
    s.btr.state = .running ∧ s.btr.cnt + 1 < s.cfg.periodTicks ∧ s.btr.cnt + 1 = s.cfg.setupTicks := by decide
theorem witness_BtrEndOfCell_roll :
    let s : State := begun (inFrame .data 7 1 0 9 6) (runOn false) false false
    s.cfg.Legal ∧ s.btr.state = .running ∧ s.cfg.periodTicks ≤ s.btr.cnt + 1 ∧ s.inp.run = true ∧ s.fa.phase ≠ .idle := by decide
theorem witness_BtrEndOfCell_stop :
    let s : State := begun (inFrame .idle 0 0 0 9 6) (runOn false) false false
    s.cfg.Legal ∧ s.btr.state = .running ∧ s.cfg.periodTicks ≤ s.btr.cnt + 1 ∧
      (s.inp.run = false ∨ s.fa.phase = .idle) := by decide
theorem witness_EveryBtrOperationRecordsTheLine :
    ∀ i ∈ rowsOf .t, i.format = .t := by decide
theorem witness_BdsBypassAndHold_bypass :
    let s : State := inFrame .idleWait 9 0 0 6 6
    s.fa.phase = .idle ∨ s.fa.phase = .crcCheck ∨ s.fa.phase = .idleWait := by decide
theorem witness_BdsBypassAndHold_hold :
    let s : State := begun (inFrame .crc 15 0 0 7 6) (runOn false) false false
    (s.fa.phase = .arbitrationId ∨ s.fa.phase = .arbitrationControl ∨ s.fa.phase = .data ∨ s.fa.phase = .crc) ∧
      s.out.sample = false := by decide
theorem witness_BdsPassesBitsOffAStuffPosition_new :
    let s : State := begun { inFrame .data 7 1 0 6 6 with bds := ⟨false, 3⟩ } (runOn false) true false
    (s.fa.phase = .arbitrationId ∨ s.fa.phase = .arbitrationControl ∨ s.fa.phase = .data ∨ s.fa.phase = .crc) ∧
      s.out.sample = true ∧ s.bds.runLen ≠ 4 ∧ (!s.inp.rxDom) ≠ s.bds.lastBit := by decide
theorem witness_BdsPassesBitsOffAStuffPosition_run :
    let s : State := begun { inFrame .data 7 1 0 6 6 with bds := ⟨true, 3⟩ } (runOn false) true false
    (s.fa.phase = .arbitrationId ∨ s.fa.phase = .arbitrationControl ∨ s.fa.phase = .data ∨ s.fa.phase = .crc) ∧
      s.out.sample = true ∧ s.bds.runLen ≠ 4 ∧ (!s.inp.rxDom) = s.bds.lastBit := by decide
theorem witness_BdsWithholdsTheBitAtAStuffPosition_destuff :
    let s : State := begun { inFrame .data 7 1 0 6 6 with bds := ⟨false, 4⟩ } (runOn false) true false
    (s.fa.phase = .arbitrationId ∨ s.fa.phase = .arbitrationControl ∨ s.fa.phase = .data ∨ s.fa.phase = .crc) ∧
      s.out.sample = true ∧ s.bds.runLen = 4 ∧ (!s.inp.rxDom) ≠ s.bds.lastBit := by decide
theorem witness_BdsWithholdsTheBitAtAStuffPosition_violation :
    let s : State := begun { inFrame .data 7 1 0 6 6 with bds := ⟨true, 4⟩ } (runOn false) true false
    (s.fa.phase = .arbitrationId ∨ s.fa.phase = .arbitrationControl ∨ s.fa.phase = .data ∨ s.fa.phase = .crc) ∧
      s.out.sample = true ∧ s.bds.runLen = 4 ∧ (!s.inp.rxDom) = s.bds.lastBit := by decide
theorem witness_CrcClearAndHold_clear :
    let s : State := begun State.reset (runOn false) true false
    s.fa.phase = .idle := by decide
theorem witness_CrcClearAndHold_hold :
    let s : State := begun (inFrame .crc 15 0 0 7 6) (runOn false) false false
    s.fa.phase = .crcCheck ∨ s.fa.phase = .idleWait ∨ s.fa.phase ≠ .idle ∧ s.out.sample = false := by decide
theorem witness_CrcAccumulatesEverySampledBit_shift :
    let s : State := begun { inFrame .data 7 1 0 6 6 with crc := ⟨0x4000⟩ } (runOn false) true false
    (s.fa.phase = .arbitrationId ∨ s.fa.phase = .arbitrationControl ∨ s.fa.phase = .data ∨ s.fa.phase = .crc) ∧
      s.out.sample = true ∧ (!s.inp.rxDom) = s.crc.reg.getLsbD 14 := by decide
theorem witness_CrcAccumulatesEverySampledBit_shiftx :
    let s : State := begun { inFrame .data 7 1 0 6 6 with crc := ⟨0x3FFF⟩ } (runOn false) true false
    (s.fa.phase = .arbitrationId ∨ s.fa.phase = .arbitrationControl ∨ s.fa.phase = .data ∨ s.fa.phase = .crc) ∧
      s.out.sample = true ∧ (!s.inp.rxDom) ≠ s.crc.reg.getLsbD 14 := by decide
theorem witness_EmitterOperations_push :
    let s : State := begun { State.reset with em := ⟨[0x01, 0x23]⟩ } (runOn false) false false
    s.em.pend = 0x01#8 :: [0x23#8] ∧ s.inp.sinkReady = true := by decide
theorem witness_EmitterOperations_stall :
    let s : State := begun { State.reset with em := ⟨[0x01]⟩ } { runOn false with sinkReady := false } false false
    s.em.pend = 0x01#8 :: [] ∧ s.inp.sinkReady = false := by decide
theorem witness_EmitterOperations_empty :
    let s : State := State.reset
    s.em.pend = [] := by decide
theorem witness_CancelAndGapDoneClearTheFrame_cancel :
    let s : State := State.reset
    s.inp.run = false := by decide
theorem witness_CancelAndGapDoneClearTheFrame_gapDone :
    let s : State := begun (inFrame .idleWait 1 0 0 6 6) (runOn false) true true
    s.inp.run = true ∧ s.fa.phase = .idleWait ∧ s.out.bitReady = true ∧ s.em.pend = [] ∧ s.fa.cnt ≤ 1 := by decide
theorem witness_FaHoldsWithoutABit_id :
    let s : State := begun (inFrame .arbitrationId 2 0 0 7 6) (runOn false) false false
    s.inp.run = true ∧ s.fa.phase = .arbitrationId ∧ s.out.bitReady = false := by decide
theorem witness_FaHoldsWithoutABit_ctl :
    let s : State := begun (inFrame .arbitrationControl 2 0 0 7 6) (runOn false) false false
    s.inp.run = true ∧ s.fa.phase = .arbitrationControl ∧ s.out.bitReady = false := by decide
theorem witness_FaHoldsWithoutABit_data :
    let s : State := begun (inFrame .data 2 0 0 7 6) (runOn false) false false
    s.inp.run = true ∧ s.fa.phase = .data ∧ s.out.bitReady = false := by decide
theorem witness_FaHoldsWithoutABit_crc :
    let s : State := begun (inFrame .crc 2 0 0 7 6) (runOn false) false false
    s.inp.run = true ∧ s.fa.phase = .crc ∧ s.out.bitReady = false := by decide
theorem witness_FaHoldsWithoutABit_gap :
    let s : State := begun (inFrame .idleWait 2 0 0 7 6) (runOn false) false false
    s.inp.run = true ∧ s.fa.phase = .idleWait ∧ s.out.bitReady = false := by decide
theorem witness_FaHoldsWithoutABit_idle :
    let s : State := begun State.reset (runOn false) false false
    s.inp.run = true ∧ s.fa.phase = .idle ∧ s.startEdge = false := by decide
theorem witness_FaHoldsWithoutABit_checkWait :
    let s : State := begun (blockedFrame .crcCheck 0 0 6) (runOn false) false false
    s.inp.run = true ∧ s.fa.phase = .crcCheck ∧ s.em.pend ≠ [] ∧ s.out.bitReady = false := by decide
theorem witness_FaStartAndStartOfFrame_start :
    let s : State := begun State.reset (runOn true) false false
    s.inp.run = true ∧ s.em.pend = [] ∧ s.fa.phase = .idle ∧ s.startEdge = true := by decide
theorem witness_FaStartAndStartOfFrame_sof :
    let s : State := begun { State.reset with fa := ⟨.arbitrationId, 11, 0, 0, true, false⟩ } (runOn true) true true
    s.inp.run = true ∧ s.em.pend = [] ∧ s.fa.phase = .arbitrationId ∧ s.out.bitReady = true ∧ s.fa.sofPending = true := by decide
theorem witness_FaShiftsAFieldBitAndCountsAGapBit_id :
    let s : State := begun (inFrame .arbitrationId 2 0 0 6 6) (runOn false) true true
    s.inp.run = true ∧ s.out.bitReady = true ∧ s.em.pend = [] ∧ 1 < s.fa.cnt ∧ s.fa.phase = .arbitrationId ∧ s.fa.sofPending = false := by decide
theorem witness_FaShiftsAFieldBitAndCountsAGapBit_ctl :
    let s : State := begun (inFrame .arbitrationControl 2 0 0 6 6) (runOn false) true true
    s.inp.run = true ∧ s.out.bitReady = true ∧ s.em.pend = [] ∧ 1 < s.fa.cnt ∧ s.fa.phase = .arbitrationControl := by decide
theorem witness_FaShiftsAFieldBitAndCountsAGapBit_data :
    let s : State := begun (inFrame .data 2 0 0 6 6) (runOn false) true true
    s.inp.run = true ∧ s.out.bitReady = true ∧ s.em.pend = [] ∧ 1 < s.fa.cnt ∧ s.fa.phase = .data := by decide
theorem witness_FaShiftsAFieldBitAndCountsAGapBit_crc :
    let s : State := begun (inFrame .crc 2 0 0 6 6) (runOn false) true true
    s.inp.run = true ∧ s.out.bitReady = true ∧ s.em.pend = [] ∧ 1 < s.fa.cnt ∧ s.fa.phase = .crc := by decide
theorem witness_FaShiftsAFieldBitAndCountsAGapBit_gap :
    let s : State := begun (inFrame .idleWait 2 0 0 6 6) (runOn false) true true
    s.inp.run = true ∧ s.out.bitReady = true ∧ s.em.pend = [] ∧ 1 < s.fa.cnt ∧ s.fa.phase = .idleWait := by decide
theorem witness_FaIdentifierDone :
    let s : State := begun (inFrame .arbitrationId 1 0 0x0091 6 6) (runOn false) true true
    s.inp.run = true ∧ s.fa.phase = .arbitrationId ∧ s.fa.sofPending = false ∧ s.out.bitReady = true ∧ s.em.pend = [] ∧
      s.fa.cnt ≤ 1 := by decide
theorem witness_FaControlDone_empty :
    let s : State := begun (inFrame .arbitrationControl 1 0 0x0008 6 6) (runOn true) true true
    s.inp.run = true ∧ s.fa.phase = .arbitrationControl ∧ s.out.bitReady = true ∧ s.em.pend = [] ∧ s.fa.cnt ≤ 1 ∧
      s.sh.toNat % 16 = 0 := by decide
theorem witness_FaControlDone_one :
    let s : State := begun (inFrame .arbitrationControl 1 0 0x0008 6 6) (runOn false) true true
    s.inp.run = true ∧ s.fa.phase = .arbitrationControl ∧ s.out.bitReady = true ∧ s.em.pend = [] ∧ s.fa.cnt ≤ 1 ∧
      s.sh.toNat % 16 = 1 := by decide
theorem witness_FaControlDone_eight :
    let s : State := begun (inFrame .arbitrationControl 1 0 0x0004 6 6) (runOn true) true true
    s.inp.run = true ∧ s.fa.phase = .arbitrationControl ∧ s.out.bitReady = true ∧ s.em.pend = [] ∧ s.fa.cnt ≤ 1 ∧
      1 ≤ s.sh.toNat % 16 ∧ s.sh.toNat % 16 = 8 := by decide
theorem witness_FaControlDone_illegal :
    let s : State := begun (inFrame .arbitrationControl 1 0 0x0004 6 6) (runOn false) true true
    s.inp.run = true ∧ s.fa.phase = .arbitrationControl ∧ s.out.bitReady = true ∧ s.em.pend = [] ∧ s.fa.cnt ≤ 1 ∧
      s.sh.toNat % 16 = 9 := by decide
theorem witness_FaDataByteDone_more :
    let s : State := begun (inFrame .data 1 2 0 6 6) (runOn false) true true
    s.inp.run = true ∧ s.fa.phase = .data ∧ s.out.bitReady = true ∧ s.em.pend = [] ∧ s.fa.cnt ≤ 1 ∧ 2 ≤ s.fa.byteCnt := by decide
theorem witness_FaDataByteDone_last :
    let s : State := begun (inFrame .data 1 1 0 6 6) (runOn false) true true
    s.inp.run = true ∧ s.fa.phase = .data ∧ s.out.bitReady = true ∧ s.em.pend = [] ∧ s.fa.cnt ≤ 1 ∧ s.fa.byteCnt ≤ 1 := by decide
theorem witness_FaCrcFieldDone :
    let s : State := begun (inFrame .crc 1 0 0 6 6) (runOn false) true true
    s.inp.run = true ∧ s.fa.phase = .crc ∧ s.out.bitReady = true ∧ s.em.pend = [] ∧ s.fa.cnt ≤ 1 := by decide
theorem witness_FaVerdict :
    let s : State := begun (inFrame .crcCheck 0 0 0 9 6) (runOn false) false false
    s.inp.run = true ∧ s.fa.phase = .crcCheck ∧ s.em.pend = [] := by decide
theorem witness_FaOverrunOperations_start :
    let s : State := begun { State.reset with em := ⟨[0x01]⟩ } (runOn true) false false
    s.inp.run = true ∧ s.em.pend ≠ [] ∧ s.fa.phase = .idle ∧ s.startEdge = true := by decide
theorem witness_FaOverrunOperations_id :
    let s : State := begun (blockedFrame .arbitrationId 2 0 6) (runOn false) true true
    s.inp.run = true ∧ s.em.pend ≠ [] ∧ s.fa.phase = .arbitrationId ∧ s.out.bitReady = true := by decide
theorem witness_FaOverrunOperations_ctl :
    let s : State := begun (blockedFrame .arbitrationControl 2 0 6) (runOn false) true true
    s.inp.run = true ∧ s.em.pend ≠ [] ∧ s.fa.phase = .arbitrationControl ∧ s.out.bitReady = true := by decide
theorem witness_FaOverrunOperations_data :
    let s : State := begun (blockedFrame .data 2 0 6) (runOn false) true true
    s.inp.run = true ∧ s.em.pend ≠ [] ∧ s.fa.phase = .data ∧ s.out.bitReady = true := by decide
theorem witness_FaOverrunOperations_crc :
    let s : State := begun (blockedFrame .crc 2 0 6) (runOn false) true true
    s.inp.run = true ∧ s.em.pend ≠ [] ∧ s.fa.phase = .crc ∧ s.out.bitReady = true := by decide
theorem witness_FaOverrunOperations_check :
    let s : State := begun (blockedFrame .crcCheck 2 0 6) (runOn false) true true
    s.inp.run = true ∧ s.em.pend ≠ [] ∧ s.fa.phase = .crcCheck ∧ s.out.bitReady = true := by decide
theorem witness_FaOverrunOperations_gap :
    let s : State := begun (blockedFrame .idleWait 2 0 6) (runOn false) true true
    s.inp.run = true ∧ s.em.pend ≠ [] ∧ s.fa.phase = .idleWait ∧ s.out.bitReady = true := by decide
theorem witness_FaSelectionFollowsPriority_system :
    let s : State := begun State.reset { runOn false with rst := true } false false
    selectOp .y s = .ok .sysReset := by decide
theorem witness_TickPriority_reset :
    let s : State := { State.reset with overrun := true, stim := [0xE] }
    s.cfg.Legal ∧ s.beginTick.inp.rst = true := by decide
theorem witness_TickPriority_halt :
    let s : State := { State.reset with overrun := true, stim := [6] }
    s.cfg.Legal ∧ s.beginTick.inp.rst = false ∧ s.overrun = true := by decide
theorem witness_TickPriority_arms :
    let s : State := { State.reset with stim := [2] }
    s.cfg.Legal ∧ s.beginTick.inp.rst = false ∧ s.overrun = false ∧ s.beginTick.inp.run = false := by decide
theorem witness_EveryLegalTickCompletes :
    let s : State := inFrame .data 7 1 0 9 6
    s.cfg.Legal ∧ (s.beginTick.inp.rst = true ∨ s.overrun = true ∨ s.Representable) := by decide
theorem witness_AStepRunsTheSelectedOperations_system :
    let s : State := { State.reset with stim := [0xE] }
    s.cfg.Legal ∧ selectTick s.beginTick = .ok (.system .sysReset) := by decide
theorem witness_AStepRunsTheSelectedOperations_arms :
    let s : State := inFrame .arbitrationId 1 0 0x0091 6 6
    s.cfg.Legal ∧ s.Representable ∧
    selectTick s.beginTick = .ok (.arms .btrSample .bdsPassRun .crcShiftx .emEmpty .faIdDone) ∧
    ∃ b' d' c' e' f', exec .btrSample s.beginTick = .next b' ∧
      exec .bdsPassRun (s.beginTick.withWires b'.out) = .next d' ∧
      exec .crcShiftx (s.beginTick.withWires d'.out) = .next c' ∧
      exec .emEmpty (s.beginTick.withWires d'.out) = .next e' ∧
      exec .faIdDone (s.beginTick.withWires d'.out) = .next f' ∧ f'.overrun = false :=
  ⟨by decide, by decide, by decide, _, _, _, _, _, rfl, rfl, rfl, rfl, rfl, rfl⟩
theorem witness_AStepRunsTheSelectedOperations_overrun :
    let s : State := blockedFrame .data 7 1 4
    s.cfg.Legal ∧ s.Representable ∧
    selectTick s.beginTick = .ok (.arms .btrSample .bdsPassRun .crcShiftx .emStall .faOverrunData) ∧
    ∃ b' d' c' e' f', exec .btrSample s.beginTick = .next b' ∧
      exec .bdsPassRun (s.beginTick.withWires b'.out) = .next d' ∧
      exec .crcShiftx (s.beginTick.withWires d'.out) = .next c' ∧
      exec .emStall (s.beginTick.withWires d'.out) = .next e' ∧
      exec .faOverrunData (s.beginTick.withWires d'.out) = .next f' ∧ f'.overrun = true :=
  ⟨by decide, by decide, by decide, _, _, _, _, _, rfl, rfl, rfl, rfl, rfl, rfl⟩
theorem witness_DecodeReadsBackEveryEncoding :
    decode ⟨.t, [true, true, true, false, true]⟩ = .ok .btrSample := by decide
theorem witness_RegisterInvariantKeptByEveryStep :
    let s : State := inFrame .data 7 1 0x0554 6 6
    step s = .next (after s) ∧ s.Inv :=
  ⟨step_after (by decide), by decide⟩
theorem witness_ResetStateMeetsTheInvariant :
    Config.Legal { setupTicks := 1, periodTicks := 2, ifgBits := 63 } := by decide
theorem witness_DestufferResetOutsideFraming :
    let s : State := inFrame .idleWait 9 0 0 6 7
    step s = .next (after s) ∧ s.framing = false ∧ s.overrun = false :=
  ⟨step_after (by decide), by decide⟩
theorem witness_ConfigurationNeverChanges :
    let s : State := inFrame .data 7 1 0x0554 6 6
    step s = .next (after s) ∧ (after s).fa.cnt = 6 :=
  ⟨step_after (by decide), by decide⟩
theorem witness_HaltedUntilReset :
    let s : State := { State.reset with overrun := true, stim := [7, 2] }
    s.overrun = true ∧ 2 ≤ s.stim.length ∧ (∀ w ∈ s.stim.take 2, (Inputs.ofWord w).rst = false) ∧
    Host.Core.run Sys2Proof.core 2 s = .next (after (after s)) :=
  ⟨by decide, by decide, by decide,
    (run_succ_of_next (step_after (by decide))).trans (run_succ_of_next (step_after (by decide)))⟩
theorem witness_BytesAreNeverLostOrRepeated_ok :
    let s : State := inFrame .arbitrationId 1 0 0x0091 6 6
    step s = .next (after s) ∧ s.Live ∧ (after s).overrun = false :=
  ⟨step_after (by decide), by decide⟩
theorem witness_BytesAreNeverLostOrRepeated_waiting :
    let s : State := blockedFrame .data 7 1 2
    step s = .next (after s) ∧ s.Live ∧ (after s).overrun = false ∧ s.em.pend ≠ [] :=
  ⟨step_after (by decide), by decide⟩
theorem witness_BytesAreNeverLostOrRepeated_overrun :
    let s : State := blockedFrame .crcCheck 0 0 6
    step s = .next (after s) ∧ s.Live ∧ (after s).overrun = true :=
  ⟨step_after (by decide), by decide⟩
theorem witness_AByteIsWrittenExactlyOnAHandshake :
    let s : State := blockedFrame .data 7 1 6
    step s = .next (after s) ∧ (after s).out.byteValid = true ∧ (after s).inp.sinkReady = true :=
  ⟨step_after (by decide), by decide⟩
theorem witness_OverrunExactlyOnAnEventWhileBlocked_bit :
    let s : State := blockedFrame .data 7 1 4
    step s = .next (after s) ∧ s.Live ∧ (after s).overrun = true :=
  ⟨step_after (by decide), by decide⟩
theorem witness_OverrunExactlyOnAnEventWhileBlocked_edge :
    let s : State := { State.reset with em := ⟨[0x01]⟩, stim := [5] }
    step s = .next (after s) ∧ s.Live ∧ (after s).overrun = true :=
  ⟨step_after (by decide), by decide⟩
theorem witness_OverrunExactlyOnAnEventWhileBlocked_cancelled :
    let s : State := blockedFrame .data 7 1 0
    step s = .next (after s) ∧ s.Live ∧ (after s).overrun = false :=
  ⟨step_after (by decide), by decide⟩
theorem witness_OverrunTickKeepsItsOutputs :
    let s : State := blockedFrame .data 7 1 4
    step s = .next (after s) ∧ s.Live ∧ (after s).overrun = true :=
  ⟨step_after (by decide), by decide⟩
theorem witness_EdgesAreIgnoredWhileRunning :
    let s : State := inFrame .data 7 1 0 5 7
    s.Live ∧ s.btr.state = .running ∧ s.edge = false ∧ s.beginTick.edge = true := by decide
theorem witness_TicksInsideABitCell :
    let s : State := { inFrame .data 7 1 0 5 6 with stim := [6, 6] }
    s.btr.state = .running ∧ 2 ≤ s.stim.length ∧ (∀ w ∈ s.stim.take 2, (Inputs.ofWord w).rst = false) ∧
    s.btr.cnt + 2 < s.cfg.periodTicks ∧ Host.Core.run Sys2Proof.core 2 s = .next (after (after s)) ∧
    (after (after s)).overrun = false ∧ (after (after s)).btr.cnt = s.cfg.setupTicks :=
  ⟨by decide, by decide, by decide, by decide,
    (run_succ_of_next (step_after (by decide))).trans (run_succ_of_next (step_after (by decide))),
    by decide, by decide⟩
theorem witness_CellBoundaries :
    let s : State := inFrame .data 7 1 0 9 6
    step s = .next (after s) ∧ s.Live ∧ s.btr.state = .running ∧ s.btr.cnt + 1 = s.cfg.periodTicks ∧ (after s).overrun = false :=
  ⟨step_after (by decide), by decide⟩
theorem witness_StrobesNeverClash :
    let s : State := { inFrame .data 7 1 0 6 6 with bds := ⟨true, 4⟩ }
    step s = .next (after s) ∧ (after s).out.stuffError = true :=
  ⟨step_after (by decide), by decide⟩
theorem witness_StartEdgeStartsTimingAndFrame :
    let s : State := { State.reset with stim := [7] }
    step s = .next (after s) ∧ s.Live ∧ s.btr.state = .idle ∧ s.btr.prevDom = false ∧ s.fa.phase = .idle ∧ s.em.pend = [] ∧
      s.beginTick.inp.run = true ∧ s.beginTick.inp.rxDom = true :=
  ⟨step_after (by decide), by decide⟩
theorem witness_IdleBusRaisesNothing :
    let s : State := { State.reset with stim := [6] }
    s.cfg.Legal ∧ s.toRegs = Regs.reset ∧ s.beginTick.inp.rxDom = false := by decide
theorem witness_CancelForcesIdleAndKeepsPendingBytes :
    let s : State := blockedFrame .data 7 1 0
    step s = .next (after s) ∧ s.Live ∧ s.beginTick.inp.run = false :=
  ⟨step_after (by decide), by decide⟩
theorem witness_CrcCoversTheRawBits :
    let s : State := { inFrame .data 7 1 0 6 6 with bds := ⟨false, 4⟩ }
    step s = .next (after s) ∧ s.Live ∧ (after s).overrun = false ∧ (after s).out.bitReady = false ∧ (after s).out.sample = true :=
  ⟨step_after (by decide), by decide⟩
theorem witness_StuffFlagLatchesUntilTheFrameEnds_set :
    let s : State := { inFrame .data 7 1 0 6 6 with bds := ⟨true, 4⟩ }
    step s = .next (after s) ∧ s.Live ∧ (after s).overrun = false ∧ (after s).fa.stuffFlag = true :=
  ⟨step_after (by decide), by decide⟩
theorem witness_StuffFlagLatchesUntilTheFrameEnds_cleared :
    let s : State := { inFrame .idleWait 1 0 0 6 6 with fa := ⟨.idleWait, 1, 0, 0, false, true⟩ }
    step s = .next (after s) ∧ s.Live ∧ (after s).overrun = false ∧ (after s).fa.stuffFlag = false :=
  ⟨step_after (by decide), by decide⟩
theorem witness_PortsShowThePreTickState :
    let s : State := blockedFrame .data 7 1 4
    step s = .next (after s) ∧ s.Live :=
  ⟨step_after (by decide), by decide⟩
theorem witness_AnEnqueuedByteIsPresentedNextTick :
    let s : State := { inFrame .arbitrationId 1 0 0x0091 6 6 with stim := [6, 6] }
    step s = .next (after s) ∧ step (after s) = .next (after (after s)) ∧
    s.Live ∧ s.em.pend = [] ∧ (after s).em.pend = 0x01#8 :: [0x23#8] ∧ (after s).Live :=
  ⟨step_after (by decide), step_after (by decide), by decide⟩
theorem witness_FrameProgressIsBounded :
    let s : State := inFrame .data 7 1 0x0554 6 6
    step s = .next (after s) ∧ s.Inv ∧ s.Live ∧ s.beginTick.inp.run = true ∧ s.fa.phase ≠ .idle ∧ (after s).overrun = false ∧
      (after s).out.bitReady = true ∧ s.fa.phase ≠ .crcCheck :=
  ⟨step_after (by decide), by decide⟩
theorem witness_DestuffingRoundTrip :
    let s : State := inFrame .data 7 1 0 6 6
    s.framing = true ∧ s.bds = { lastBit := true, runLen := 0 } ∧
    ¬ [true, true, true, true] <+: [true, true, true, false, false, false, false, false] := by decide
theorem witness_LongRunsRaiseOneViolationPerFive :
    let s : State := { inFrame .data 7 1 0 6 6 with bds := ⟨false, 0⟩ }
    s.framing = true ∧ s.bds = { lastBit := false, runLen := 0 } := by decide
theorem witness_CrcSyndrome :
    let s : State := { inFrame .crc 15 0 0 6 6 with crc := ⟨0x6FCC⟩ }
    s.framing = true ∧ (bitsMsbFirst 15 0x6FCC).length = 15 ∧ feedCrc s (bitsMsbFirst 15 0x6FCC) = some 0#15 := by decide
theorem witness_FrameBitsBecomeTheRecord :
    let s : State := { State.reset with fa := ⟨.arbitrationId, 11, 0, 0, true, false⟩ }
    s.fa.phase = .arbitrationId ∧ s.fa.cnt = 11 ∧ s.fa.sofPending = true ∧ s.fa.byteCnt = 0 ∧
      ([] : List Byte).length ≤ 8 ∧ (List.replicate 8 (0xFF : Byte)).length ≤ 8 ∧ 9 ≤ (9#4).toNat ∧ 9 ≤ (15#4).toNat := by decide
theorem witness_RecordsAreSelfDelimiting :
    (Record.full 0x2AA (List.replicate 8 0x56) 0x6ED3 true).WellFormed ∧ (Record.truncated 0x2AA 9).WellFormed := by decide
theorem witness_LegalTimingProfiles :
    let p := TimingProfile.ofRates 10000000 1000000
    1 ≤ p.sync + p.prop + p.seg1 ∧ 1 ≤ p.seg2 ∧ 1 ≤ p.ticksPerQuantum := by decide
theorem witness_WhatAStepRefuses_configuration :
    let s : State := State.resetWith { setupTicks := 10, periodTicks := 10, ifgBits := 10 }
    completes s = false ∧ ¬ s.cfg.Legal := by decide
theorem witness_WhatAStepRefuses_register :
    let s : State := { State.reset with bds := ⟨true, 5⟩, stim := [6] }
    completes s = false ∧ s.cfg.Legal ∧ s.beginTick.inp.rst = false ∧ s.overrun = false ∧ 4 < s.bds.runLen := by decide
theorem witness_InputsComeFromTheStimulusWord :
    let s : State := { State.reset with stim := [7] }
    step s = .next (after s) ∧ s.stim = 7#4 :: [] :=
  ⟨step_after (by decide), by decide⟩
theorem test_reset_field_bounds : State.reset.FieldBounds := by decide
theorem witness_FieldCountersStayInRange_identifier :
    let s : State := { State.reset with btr := ⟨.running, 6, true⟩, fa := ⟨.arbitrationId, 11, 0, 0, true, false⟩, stim := [7] }
    step s = .next (after s) ∧ s.Inv ∧ s.FieldBounds ∧ (after s).fa.cnt = 11 :=
  ⟨step_after (by decide), by decide⟩
theorem witness_FieldCountersStayInRange_control :
    let s : State := inFrame .arbitrationControl 7 0 0 6 6
    step s = .next (after s) ∧ s.Inv ∧ s.FieldBounds ∧ (after s).fa.cnt = 6 :=
  ⟨step_after (by decide), by decide⟩
theorem witness_FieldCountersStayInRange_crc :
    let s : State := inFrame .crc 15 0 0 6 6
    step s = .next (after s) ∧ s.Inv ∧ s.FieldBounds ∧ (after s).fa.cnt = 14 :=
  ⟨step_after (by decide), by decide⟩
theorem witness_FieldCountersStayInRange_gap :
    let s : State := inFrame .idleWait 10 0 0 6 6
    step s = .next (after s) ∧ s.Inv ∧ s.FieldBounds ∧ (after s).fa.cnt = 9 :=
  ⟨step_after (by decide), by decide⟩

end Sys2Proof.Tests
end

/-! PROOFS. The scope of the model (00_scope.md): its constants, what a step runs and what it refuses. First the facts every
proof about a whole step needs: each operation completes, each component selects one, and the three ways a step ends. -/

namespace Sys2Proof.Machine

/-! ### Every operation answers a next state, and every component selects one -/

/-- No operation faults or refuses (log entry 7): each of the 52 arms answers a next state. -/
theorem exec_total (i : Instr) (s : State) : ∃ t, exec i s = .next t := by
  obtain ⟨f, hf⟩ : ∃ f, i.format = f := ⟨_, rfl⟩
  cases f with
  | y => rcases exec_of_format_y hf s with h | h <;> exact ⟨_, h⟩
  | t => obtain ⟨_, _, _, _, h⟩ := exec_of_format_t hf s; exact ⟨_, h⟩
  | s => obtain ⟨_, _, _, _, h⟩ := exec_of_format_s hf s; exact ⟨_, h⟩
  | c => obtain ⟨_, h⟩ := exec_of_format_c hf s; exact ⟨_, h⟩
  | e => rcases exec_of_format_e hf s with h | ⟨_, _, -, h | h⟩ <;> exact ⟨_, h⟩
  | a => rcases exec_of_format_a hf s with h | ⟨_, _, h⟩ <;> exact ⟨_, h⟩

/-- Five arms that each answer a next state are run by one commit. -/
theorem runBundle_arms {s b' d' c' e' f' : State} {t d c e a : Instr} (hb : exec t s = .next b')
    (hd : exec d (s.withWires b'.out) = .next d') (hc : exec c (s.withWires d'.out) = .next c')
    (he : exec e (s.withWires d'.out) = .next e') (hf : exec a (s.withWires d'.out) = .next f') :
    runBundle s (.arms t d c e a) = .next (commit s b' d' c' e' f') := by
  simp [runBundle, hb, hd, hc, he, hf]

/-- A bundle's operations always complete. -/
theorem runBundle_total (s : State) (b : Bundle) : ∃ t, runBundle s b = .next t := by
  cases b with
  | system y => exact exec_total y s
  | arms t d c e a =>
    obtain ⟨b', hb⟩ := exec_total t s
    obtain ⟨d', hd⟩ := exec_total d (s.withWires b'.out)
    obtain ⟨c', hc⟩ := exec_total c (s.withWires d'.out)
    obtain ⟨e', he⟩ := exec_total e (s.withWires d'.out)
    obtain ⟨f', hf⟩ := exec_total a (s.withWires d'.out)
    exact ⟨_, runBundle_arms hb hd hc he hf⟩

/-- The two bits of the length class: a code of 9 to 15, a code of 1 to 8 (30_encoding.md R80). -/
theorem lengthClass_eq (n : Nat) : lengthClass n = [decide (8 < n), decide (0 < n ∧ n ≤ 8)] := by
  unfold lengthClass
  split
  · next h0 => subst h0; rfl
  · split
    · next h0 h8 => simp [h8, Nat.pos_of_ne_zero h0]
    · next h8 => simp [h8, Nat.lt_of_not_le h8]

/-- FA's selector word, bit by bit (30_encoding.md R80). -/
theorem selectorWord_a {s : State} {p2 p1 p0 : Bool} (h : s.fa.phase.code = [p2, p1, p0]) :
    selectorWord .a s =
      [s.inp.run, p2, p1, p0, s.startEdge, s.out.bitReady, s.blocked, s.fa.sofPending, s.last, decide (8 < s.dlc),
        decide (0 < s.dlc ∧ s.dlc ≤ 8), s.lastByte] := by
  simp [selectorWord, h, lengthClass_eq]

/-- Which operation ends the control field: by the two bits of the length class, and by the length code itself. -/
theorem ctlDone_by_length (n : Nat) :
    (if decide (8 < n) then Instr.faCtlDoneIllegal
      else if decide (0 < n ∧ n ≤ 8) then .faCtlDoneData else .faCtlDoneEmpty) =
    if n = 0 then .faCtlDoneEmpty else if n ≤ 8 then .faCtlDoneData else .faCtlDoneIllegal := by
  obtain rfl | ⟨h0, h8⟩ | h9 : n = 0 ∨ (0 < n ∧ n ≤ 8) ∨ 8 < n := by omega
  · rfl
  · simp [h0, h8, Nat.not_lt.2 h8, Nat.ne_of_gt h0]
  · simp [h9, Nat.not_le.2 h9, Nat.ne_of_gt (Nat.zero_lt_of_lt h9)]

/-- Which operation ends a data byte: by the selector bit `lastByte`, and by `fa.byte_cnt` itself. -/
theorem dataDone_by_count (s : State) :
    (if s.lastByte then Instr.faDataLast else .faDataByte) = if 1 < s.fa.byteCnt then .faDataByte else .faDataLast := by
  by_cases h : 1 < s.fa.byteCnt
  · rw [State.lastByte_false_iff.2 h, if_pos h]
    rfl
  · rw [State.lastByte_iff.2 (Nat.le_of_not_lt h), if_neg h]
    rfl

/-- Format A selects the operation that the priority order of 43_frame_assembler.md R162 names. -/
theorem selectOp_a (s : State) : selectOp .a s = .ok (faArmByPriority s) := by
  unfold selectOp faArmByPriority
  cases hrun : s.inp.run with
  | false =>
    obtain ⟨p2, p1, p0, hp⟩ : ∃ p2 p1 p0, s.fa.phase.code = [p2, p1, p0] := by
      cases s.fa.phase <;> exact ⟨_, _, _, rfl⟩
    rw [selectorWord_a hp, hrun, decode_a_cancel]
    rfl
  | true =>
    cases hp : s.fa.phase with
    | idle =>
      rw [selectorWord_a (congrArg Phase.code hp), hrun, decode_a_idle]
      cases s.startEdge <;> cases s.blocked <;> rfl
    | arbitrationId =>
      rw [selectorWord_a (congrArg Phase.code hp), hrun, decode_a_arbitrationId]
      cases s.out.bitReady <;> cases s.blocked <;> rfl
    | arbitrationControl =>
      have hcc : (decide (8 < s.dlc) && decide (0 < s.dlc ∧ s.dlc ≤ 8)) = false := by simp; omega
      rw [selectorWord_a (congrArg Phase.code hp), hrun, decode_a_arbitrationControl _ _ _ _ _ _ _ _ hcc,
        ctlDone_by_length]
      cases s.out.bitReady <;> cases s.blocked <;> cases s.last <;> rfl
    | data =>
      rw [selectorWord_a (congrArg Phase.code hp), hrun, decode_a_data, dataDone_by_count]
      cases s.out.bitReady <;> cases s.blocked <;> cases s.last <;> rfl
    | crc =>
      rw [selectorWord_a (congrArg Phase.code hp), hrun, decode_a_crc]
      cases s.out.bitReady <;> cases s.blocked <;> rfl
    | crcCheck =>
      rw [selectorWord_a (congrArg Phase.code hp), hrun, decode_a_crcCheck]
      cases s.blocked <;> rfl
    | idleWait =>
      rw [selectorWord_a (congrArg Phase.code hp), hrun, decode_a_idleWait]
      cases s.out.bitReady <;> cases s.blocked <;> rfl

/-- With a legal configuration BTR always selects: `n = SETUP_TICKS` and `n >= PERIOD_TICKS` exclude each other
(00_scope.md R7, 30_encoding.md R82). -/
theorem selectOp_t_total {s : State} (hl : s.cfg.Legal) : ∃ t, selectOp .t s = .ok t := by
  obtain ⟨-, hlt, -, -⟩ := hl
  rw [selectOp_t]
  split
  · split <;> exact ⟨_, rfl⟩
  · split
    · next hper =>
      have hsetup : s.atSetup = false := by
        rw [State.atPeriod_iff] at hper
        rw [State.atSetup_false_iff]
        omega
      rw [hsetup]
      cases s.keep <;> exact ⟨_, rfl⟩
    · split <;> exact ⟨_, rfl⟩

/-- With `rst = 1` or halted, a tick selects a system operation (60_exceptions.md R227). -/
theorem selectTick_of_system {s : State} (h : s.inp.rst = true ∨ s.overrun = true) :
    ∃ y, selectTick s = .ok (.system y) := by
  obtain ⟨y, hy⟩ : ∃ y, selectOp .y s = .ok y := by
    rw [selectOp_y]
    rcases h with h | h <;> rw [h]
    · exact ⟨_, rfl⟩
    · cases s.inp.rst <;> exact ⟨_, rfl⟩
  exact ⟨y, by simp [selectTick, hy]⟩

/-- The converse of `selectTick_arms`: a tick selects the bundle of what its components select. -/
theorem selectTick_eq_arms {s : State} {r : DecodeError} {t d c e a : Instr} (hy : selectOp .y s = .error r)
    (ht : selectOp .t s = .ok t) (hd : selectOp .s (s.withWires (wiresAfter t s)) = .ok d)
    (hcea : let s2 := (s.withWires (wiresAfter t s)).withWires (wiresAfter d (s.withWires (wiresAfter t s)))
      selectOp .c s2 = .ok c ∧ selectOp .e s2 = .ok e ∧ selectOp .a s2 = .ok a) :
    selectTick s = .ok (.arms t d c e a) := by
  obtain ⟨hc, he, ha⟩ := hcea
  simp [selectTick, hy, ht, hd, hc, he, ha]

/-- Otherwise, with a legal configuration, a tick selects one operation of each component. -/
theorem selectTick_of_live {s : State} (hl : s.cfg.Legal) (hr : s.inp.rst = false) (ho : s.overrun = false) :
    ∃ t d c e a, selectTick s = .ok (.arms t d c e a) := by
  have hy : selectOp .y s = .error .noSystemRow := by simp [selectOp_y, hr, ho]
  obtain ⟨t, ht⟩ := selectOp_t_total hl
  exact ⟨t, _, _, _, _, selectTick_eq_arms hy ht (selectOp_s _) ⟨selectOp_c _, selectOp_e _, selectOp_a _⟩⟩

/-! ### The three ways a step can end -/

/-- A step with an illegal configuration (00_scope.md R7, R9). -/
theorem step_of_not_legal {s : State} (hl : ¬ s.cfg.Legal) : step s = .refused .illegalConfiguration := if_neg hl

/-- A step with a legal configuration is the tick that begins. -/
theorem step_of_legal {s : State} (hl : s.cfg.Legal) : step s = tick s.beginTick := if_pos hl

/-- A step that selects a system operation is that operation on the begun tick. -/
theorem step_of_system {s : State} {y : Instr} (hl : s.cfg.Legal) (h : selectTick s.beginTick = .ok (.system y)) :
    step s = exec y s.beginTick := by
  rw [step_of_legal hl, tick, h]
  rfl

/-- A step that selects the component arms runs them when the registers are representable. -/
theorem step_of_arms {s : State} {t d c e a : Instr} (hl : s.cfg.Legal)
    (h : selectTick s.beginTick = .ok (.arms t d c e a)) (hrep : s.Representable) :
    step s = runBundle s.beginTick (.arms t d c e a) := by
  rw [step_of_legal hl, tick, h]
  exact if_pos hrep

/-- A step that selects the component arms refuses when they are not (log entry 8). -/
theorem step_of_not_representable {s : State} {t d c e a : Instr} (hl : s.cfg.Legal)
    (h : selectTick s.beginTick = .ok (.arms t d c e a)) (hrep : ¬ s.Representable) :
    step s = .refused .unreachableEncoding := by
  rw [step_of_legal hl, tick, h]
  exact if_neg hrep

/-- A legal step completes in a reset or halted tick, and in every other from representable registers. -/
theorem step_completes {s : State} (hl : s.cfg.Legal)
    (h : s.beginTick.inp.rst = true ∨ s.overrun = true ∨ s.Representable) : ∃ t, step s = .next t := by
  by_cases hsys : s.beginTick.inp.rst = true ∨ s.beginTick.overrun = true
  · obtain ⟨y, hy⟩ := selectTick_of_system hsys
    rw [step_of_system hl hy]
    exact exec_total y s.beginTick
  · obtain ⟨hr, ho⟩ : s.beginTick.inp.rst = false ∧ s.overrun = false := by simpa using hsys
    obtain ⟨t, d, c, e, a, hb⟩ := selectTick_of_live (s := s.beginTick) hl hr ho
    have hrep : s.Representable := by simpa [hr, ho] using h
    rw [step_of_arms hl hb hrep]
    exact runBundle_total _ _

/-- A legal step refuses a register value of 30_encoding.md R82 (d) exactly when the component arms would execute. -/
theorem step_unreachableEncoding_iff {s : State} (hl : s.cfg.Legal) :
    step s = .refused .unreachableEncoding ↔
      s.beginTick.inp.rst = false ∧ s.overrun = false ∧ ¬ s.Representable := by
  constructor
  · intro h
    have hstop : ¬ (s.beginTick.inp.rst = true ∨ s.overrun = true ∨ s.Representable) := by
      intro hc
      obtain ⟨t, ht⟩ := step_completes hl hc
      rw [h] at ht
      cases ht
    simpa only [not_or, Bool.not_eq_true] using hstop
  · rintro ⟨hr, ho, hrep⟩
    obtain ⟨t, d, c, e, a, hb⟩ := selectTick_of_live (s := s.beginTick) hl hr ho
    exact step_of_not_representable hl hb hrep

/-- A step refuses with `illegalConfiguration` exactly when the configuration is illegal: a legal step completes or
refuses a register value. -/
theorem step_illegalConfiguration_iff {s : State} : step s = .refused .illegalConfiguration ↔ ¬ s.cfg.Legal := by
  refine ⟨fun h hl => ?_, step_of_not_legal⟩
  by_cases hrun : s.beginTick.inp.rst = true ∨ s.overrun = true ∨ s.Representable
  · obtain ⟨t, ht⟩ := step_completes hl hrun
    rw [h] at ht
    cases ht
  · have hu := (step_unreachableEncoding_iff hl).2 (by simpa only [not_or, Bool.not_eq_true] using hrun)
    rw [h] at hu
    cases hu

/-- The register values of 30_encoding.md R82 (d), written as bounds exceeded. -/
theorem not_representable_iff {s : State} : ¬ s.Representable ↔
    4 < s.bds.runLen ∨ 2 < s.em.pend.length ∨ 8 < s.fa.byteCnt ∨ s.cfg.periodTicks ≤ s.btr.cnt ∨ 63 < s.fa.cnt := by
  omega

/-! ### The obligations -/

/-- Settles O33: a reset, a halted tick and a commit each keep the configuration of the tick that began. -/
theorem configurationNeverChanges : Obligations.ConfigurationNeverChanges := by
  unfold Obligations.ConfigurationNeverChanges
  intro s t h
  obtain ⟨-, ⟨-, rfl⟩ | ⟨-, -, rfl⟩ | ⟨-, -, -, x, d, c, e, a, b', d', c', e', f', -, -, -, -, -, -, rfl⟩⟩ :=
    step_next_cases h
  · simp only [State.resetTick_cfg, State.beginTick_cfg]
  · simp only [State.stayHalted_cfg, State.beginTick_cfg]
  · simp only [commit_cfg, State.beginTick_cfg]

/-- With quanta on both sides of the sample point, the two tick counts are legal exactly when a quantum has a tick:
`PERIOD_TICKS` exceeds `SETUP_TICKS` by `seg2` quanta (00_scope.md R5, R7). -/
theorem segments_legal_iff {setup after tpq : Nat} (hs : 1 ≤ setup) (ha : 1 ≤ after) :
    (1 ≤ setup * tpq ∧ setup * tpq < (setup + after) * tpq) ↔ 1 ≤ tpq := by
  constructor
  · rintro ⟨h, -⟩
    exact Nat.pos_of_mul_pos_left h
  · intro h
    exact ⟨Nat.mul_pos hs h, Nat.mul_lt_mul_of_pos_right (by omega) h⟩

/-- Settles O57: the legality by `segments_legal_iff`; the default segments are 7 and 10 quanta by evaluation. -/
theorem legalTimingProfiles : Obligations.LegalTimingProfiles := by
  unfold Obligations.LegalTimingProfiles
  constructor
  · intro p g hs ha h1 h63
    have hq := segments_legal_iff (tpq := p.ticksPerQuantum) hs ha
    constructor
    · rintro ⟨hsetup, hperiod, -, -⟩
      exact hq.1 ⟨hsetup, hperiod⟩
    · intro ht
      obtain ⟨hsetup, hperiod⟩ := hq.2 ht
      exact ⟨hsetup, hperiod, h1, h63⟩
  · intro hz rate
    exact ⟨rfl, rfl⟩

/-- Settles O58: a step is refused only in the two cases of `step_illegalConfiguration_iff` and
`step_unreachableEncoding_iff`. -/
theorem whatAStepRefuses : Obligations.WhatAStepRefuses := by
  unfold Obligations.WhatAStepRefuses
  intro s
  refine ⟨step_illegalConfiguration_iff, fun hl => ?_⟩
  rw [step_unreachableEncoding_iff hl, not_representable_iff]

/-- Settles O27: the selection fixes the bundle, `runBundle_arms` the five results, and `commit` joins them by whether
FA raised Overrun. -/
theorem aStepRunsTheSelectedOperations : Obligations.AStepRunsTheSelectedOperations := by
  unfold Obligations.AStepRunsTheSelectedOperations
  intro s hl
  refine ⟨fun y hy => step_of_system hl hy, ?_⟩
  intro t d c e a b' d' c' e' f' hsel hrep hb hd hc he hf
  have hstep : step s = .next (commit s.beginTick b' d' c' e' f') :=
    (step_of_arms hl hsel hrep).trans (runBundle_arms hb hd hc he hf)
  constructor
  · intro hok
    rw [hstep, commit_of_ok hok]
    rfl
  · intro hover
    rw [hstep, commit_of_overrun hover]
    rfl

end Sys2Proof.Machine

/-! PROOFS. The state of the block (10_state.md): its register invariant R43, the bounds of its counters, and its output
ports. First what FA and EM can do in a tick and what a whole step then leaves in each register; the obligations cite
these. -/

namespace Sys2Proof.Machine

/-! ### What FA can do in a tick -/

/-- FA takes this tick's bit: the host lets it run, BDS passes a bit, and no byte waits (43_frame_assembler.md R162). -/
abbrev State.TakesBit (s : State) : Prop := s.inp.run = true ∧ s.out.bitReady = true ∧ s.blocked = false

/-- What FA's selected operation does to the snapshot `s`, with the guard under which it is selected
(43_frame_assembler.md R162 to R183). -/
inductive FaMove (s : State) : State → Prop
  | overrun (hrun : s.inp.run = true) (hb : s.blocked = true)
      (hev : s.startEdge = true ∧ s.fa.phase = .idle ∨ s.out.bitReady = true ∧ s.fa.phase ≠ .idle) :
      FaMove s s.raiseOverrun
  | cancel (hrun : s.inp.run = false) : FaMove s s.clearFrame
  | stayIdle (hrun : s.inp.run = true) (hp : s.fa.phase = .idle) (hedge : s.startEdge = false) : FaMove s s.holdFa
  | start (hrun : s.inp.run = true) (hp : s.fa.phase = .idle) (hedge : s.startEdge = true) (hb : s.blocked = false) :
      FaMove s (s.writeFa { s.fa with phase := .arbitrationId, cnt := 11, sofPending := true })
  | hold (hrun : s.inp.run = true) (hp : s.fa.phase ≠ .idle) (hbit : s.out.bitReady = false) : FaMove s s.holdFa
  | sof (hbit : s.TakesBit) (hp : s.fa.phase = .arbitrationId) (hsof : s.fa.sofPending = true) :
      FaMove s (s.writeFa { s.fa with sofPending := false })
  | shift (hbit : s.TakesBit) (hp : s.framing = true) (hlast : s.last = false)
      (hsof : s.fa.phase = .arbitrationId → s.fa.sofPending = false) : FaMove s s.shiftFieldBit
  | idDone (hbit : s.TakesBit) (hp : s.fa.phase = .arbitrationId) (hsof : s.fa.sofPending = false)
      (hlast : s.last = true) :
      FaMove s ((s.endField .arbitrationControl 7 s.fa.byteCnt).enqueue [idHighByte s.sh, lowByte s.sh])
  | ctlDoneEmpty (hbit : s.TakesBit) (hp : s.fa.phase = .arbitrationControl) (hlast : s.last = true)
      (hdlc : s.dlc = 0) : FaMove s (s.endControl .crc 15 s.fa.byteCnt)
  | ctlDoneData (hbit : s.TakesBit) (hp : s.fa.phase = .arbitrationControl) (hlast : s.last = true)
      (hpos : s.dlc ≠ 0) (hle : s.dlc ≤ 8) : FaMove s (s.endControl .data 8 s.dlc)
  | ctlDoneIllegal (hbit : s.TakesBit) (hp : s.fa.phase = .arbitrationControl) (hlast : s.last = true)
      (hgt : 8 < s.dlc) : FaMove s (s.endControl .idleWait s.cfg.ifgBits s.fa.byteCnt)
  | dataByte (hbit : s.TakesBit) (hp : s.fa.phase = .data) (hlast : s.last = true) (hmore : 1 < s.fa.byteCnt) :
      FaMove s ((s.endField s.fa.phase 8 (s.fa.byteCnt - 1)).enqueue [lowByte s.sh])
  | dataLast (hbit : s.TakesBit) (hp : s.fa.phase = .data) (hlast : s.last = true) (hone : s.fa.byteCnt ≤ 1) :
      FaMove s ((s.endField .crc 15 0).enqueue [lowByte s.sh])
  | crcDone (hbit : s.TakesBit) (hp : s.fa.phase = .crc) (hlast : s.last = true) :
      FaMove s ((s.endField .crcCheck 0 s.fa.byteCnt).enqueue [crcHighByte s.sh, lowByte s.sh])
  | check (hrun : s.inp.run = true) (hp : s.fa.phase = .crcCheck) (hb : s.blocked = false) :
      FaMove s ((s.writeFa { s.fa with phase := .idleWait, cnt := s.cfg.ifgBits }).enqueue [statusByte s.crc.reg])
  | gapCount (hbit : s.TakesBit) (hp : s.fa.phase = .idleWait) (hlast : s.last = false) :
      FaMove s (s.writeFa { s.fa with cnt := s.fa.cnt - 1 })
  | gapDone (hbit : s.TakesBit) (hp : s.fa.phase = .idleWait) (hlast : s.last = true) : FaMove s s.clearFrame

section

variable {s f u : State}

/-- The two rows every phase that waits for a bit begins with: no bit holds, a bit that finds a byte waiting raises
Overrun; `rest` is what the phase does with a bit it takes (43_frame_assembler.md R162, R182, R183). -/
theorem fa_move_of_bit {hold raise rest : Instr} (hrun : s.inp.run = true) (hp : s.fa.phase ≠ .idle)
    (hhold : exec hold s = .next s.holdFa) (hraise : exec raise s = .next s.raiseOverrun)
    (hrest : s.TakesBit → exec rest s = .next f → FaMove s f)
    (he : exec (if s.out.bitReady = false then hold else if s.blocked then raise else rest) s = .next f) :
    FaMove s f := by
  split at he
  · next hbit =>
    rw [hhold] at he
    cases he
    exact .hold hrun hp hbit
  · next hbit =>
    rw [Bool.not_eq_false] at hbit
    split at he
    · next hb =>
      rw [hraise] at he
      cases he
      exact .overrun hrun hb (.inr ⟨hbit, hp⟩)
    · next hb => exact hrest ⟨hrun, hbit, by simpa using hb⟩ he

/-- FA's selected operation makes one of the moves of `FaMove`. -/
theorem fa_move {i : Instr} (hi : selectOp .a s = .ok i) (he : exec i s = .next f) : FaMove s f := by
  rw [selectOp_a] at hi
  cases hi
  unfold faArmByPriority at he
  cases hrun : s.inp.run with
  | false =>
    simp only [hrun, if_true] at he
    cases he
    exact .cancel hrun
  | true =>
    simp only [hrun, Bool.true_eq_false, if_false] at he
    cases hp : s.fa.phase <;> simp only [hp] at he
    case idle =>
      split at he
      · next hedge => cases he; exact .stayIdle hrun hp hedge
      · next hedge =>
        rw [Bool.not_eq_false] at hedge
        split at he
        · next hb => cases he; exact .start hrun hp hedge hb
        · next hb => cases he; exact .overrun hrun (by simpa using hb) (.inl ⟨hedge, hp⟩)
    case crcCheck =>
      split at he
      · next hb =>
        split at he
        · next hbit => cases he; exact .overrun hrun hb (.inr ⟨hbit, by simp [hp]⟩)
        · next hbit => cases he; exact .hold hrun (by simp [hp]) (by simpa using hbit)
      · next hb => cases he; exact .check hrun hp (by simpa using hb)
    all_goals refine fa_move_of_bit hrun (by simp [hp]) rfl rfl (fun hbit he => ?_) he
    case arbitrationId =>
      split at he
      · next hsof => cases he; exact .sof hbit hp hsof
      · next hsof =>
        rw [Bool.not_eq_true] at hsof
        split at he
        · next hlast => cases he; exact .idDone hbit hp hsof hlast
        · next hlast =>
          cases he
          exact .shift hbit (by simp [State.framing_iff, hp]) (by simpa using hlast) fun _ => hsof
    case arbitrationControl =>
      split at he
      · next hlast => cases he; exact .shift hbit (by simp [State.framing_iff, hp]) hlast (by simp [hp])
      · next hlast =>
        rw [Bool.not_eq_false] at hlast
        split at he
        · next hdlc => cases he; exact .ctlDoneEmpty hbit hp hlast hdlc
        · next hpos =>
          split at he
          · next hle => cases he; exact .ctlDoneData hbit hp hlast hpos hle
          · next hgt => cases he; exact .ctlDoneIllegal hbit hp hlast (Nat.lt_of_not_le hgt)
    case data =>
      split at he
      · next hlast => cases he; exact .shift hbit (by simp [State.framing_iff, hp]) hlast (by simp [hp])
      · next hlast =>
        rw [Bool.not_eq_false] at hlast
        split at he
        · next hmore => cases he; exact .dataByte hbit hp hlast hmore
        · next hone => cases he; exact .dataLast hbit hp hlast (Nat.le_of_not_lt hone)
    case crc =>
      split at he
      · next hlast => cases he; exact .crcDone hbit hp hlast
      · next hlast =>
        cases he
        exact .shift hbit (by simp [State.framing_iff, hp]) (by simpa using hlast) (by simp [hp])
    case idleWait =>
      split at he
      · next hlast => cases he; exact .gapDone hbit hp hlast
      · next hlast => cases he; exact .gapCount hbit hp (by simpa using hlast)

/-- A move leaves FA outside `Idle` only when the host lets it run and it was outside or starts a frame. -/
theorem FaMove.run_of_not_idle (h : FaMove s f) (hp : f.fa.phase ≠ .idle) :
    s.inp.run = true ∧ (s.fa.phase ≠ .idle ∨ s.startEdge = true) := by
  cases h with
  | overrun | cancel | gapDone => exact absurd rfl hp
  | stayIdle _ hidle _ => exact absurd hidle hp
  | start hrun _ hedge _ => exact ⟨hrun, .inr hedge⟩
  | hold hrun hnot _ => exact ⟨hrun, .inl hnot⟩
  | shift hbit hframing _ _ => exact ⟨hbit.1, .inl hp⟩
  | check hrun hphase _ => exact ⟨hrun, .inl (by simp [hphase])⟩
  | sof hbit hphase | idDone hbit hphase | ctlDoneEmpty hbit hphase | ctlDoneData hbit hphase
  | ctlDoneIllegal hbit hphase | dataByte hbit hphase | dataLast hbit hphase | crcDone hbit hphase
  | gapCount hbit hphase => exact ⟨hbit.1, .inl (by simp [hphase])⟩

/-- A move that does not raise Overrun leaves the fault bit alone. -/
theorem FaMove.eq_raiseOverrun_or (h : FaMove s f) : f = s.raiseOverrun ∨ f.overrun = s.overrun := by
  cases h with
  | overrun => exact .inl rfl
  | _ => exact .inr rfl

/-- No move of FA changes the configuration. -/
theorem FaMove.cfg_eq (h : FaMove s f) : f.cfg = s.cfg := by
  cases h <;> rfl

/-- FA hands over at most two bytes (44_byte_emitter.md R204). -/
theorem FaMove.pend_length_le (h : FaMove s f) (hs : s.em.pend.length ≤ 2) : f.em.pend.length ≤ 2 := by
  cases h with
  | overrun | idDone | ctlDoneEmpty | ctlDoneData | ctlDoneIllegal | dataByte | dataLast | crcDone | check =>
    simp [Regs.reset]
  | _ => exact hs

/-- `fa.cnt` is counted down or loaded: no load exceeds 15 but the gap's (10_state.md R27). -/
theorem FaMove.cnt_le (h : FaMove s f) : f.fa.cnt ≤ max s.fa.cnt (max 15 s.cfg.ifgBits) := by
  cases h with
  | stayIdle | hold | sof => exact le_max_left _ _
  | shift | gapCount => exact le_max_of_le_left (Nat.sub_le _ _)
  | overrun | cancel | start | idDone | ctlDoneEmpty | ctlDoneData | ctlDoneIllegal | dataByte | dataLast | crcDone
  | check | gapDone => simp [Regs.reset]

/-! ### The coherence of FA's registers (10_state.md R43 (c) to (f), (h)) -/

/-- The part of `State.Coherent` about FA alone, phase by phase. -/
def Fa.Coherent (r : Fa) : Prop :=
  match r.phase with
  | .idle => r = Regs.reset.fa
  | .arbitrationId => 1 ≤ r.cnt ∧ r.byteCnt = 0 ∧ (r.sofPending = true → r.cnt = 11)
  | .arbitrationControl | .crc | .idleWait => 1 ≤ r.cnt ∧ r.byteCnt = 0 ∧ r.sofPending = false
  | .data => 1 ≤ r.cnt ∧ r.cnt ≤ 8 ∧ 1 ≤ r.byteCnt ∧ r.byteCnt ≤ 8 ∧ r.sofPending = false
  | .crcCheck => r.cnt = 0 ∧ r.byteCnt = 0 ∧ r.sofPending = false

/-- `State.Coherent` is what R43 says of BTR, and FA's part. -/
theorem State.coherent_iff : s.Coherent ↔
    (s.btr.state = .idle → s.btr.cnt = 0 ∧ s.fa.phase = .idle) ∧ s.fa.Coherent := by
  unfold State.Coherent Fa.Coherent
  cases hp : s.fa.phase
  case idle =>
    have hreset : s.fa = Regs.reset.fa → s.fa.byteCnt = 0 ∧ s.fa.sofPending = false := fun h => by
      simp [h, Regs.reset]
    simpa using fun _ => hreset
  all_goals simp; tauto

section

variable {r : Fa}

theorem Fa.coherent_idle (hp : r.phase = .idle) : r.Coherent ↔ r = Regs.reset.fa := by
  simp [Fa.Coherent, hp]

theorem Fa.coherent_id (hp : r.phase = .arbitrationId) :
    r.Coherent ↔ 1 ≤ r.cnt ∧ r.byteCnt = 0 ∧ (r.sofPending = true → r.cnt = 11) := by
  simp [Fa.Coherent, hp]

theorem Fa.coherent_counting (hp : r.phase = .arbitrationControl ∨ r.phase = .crc ∨ r.phase = .idleWait) :
    r.Coherent ↔ 1 ≤ r.cnt ∧ r.byteCnt = 0 ∧ r.sofPending = false := by
  rcases hp with hp | hp | hp <;> simp [Fa.Coherent, hp]

theorem Fa.coherent_data (hp : r.phase = .data) :
    r.Coherent ↔ 1 ≤ r.cnt ∧ r.cnt ≤ 8 ∧ 1 ≤ r.byteCnt ∧ r.byteCnt ≤ 8 ∧ r.sofPending = false := by
  simp [Fa.Coherent, hp]

theorem Fa.coherent_check (hp : r.phase = .crcCheck) :
    r.Coherent ↔ r.cnt = 0 ∧ r.byteCnt = 0 ∧ r.sofPending = false := by
  simp [Fa.Coherent, hp]

/-- Outside `Idle` coherence does not speak of the shift register or `fa.stuff_flag`. -/
theorem Fa.coherent_of_not_idle (h : r.Coherent) (hp : r.phase ≠ .idle) (x : Word15) (b : Bool) :
    Fa.Coherent { r with shreg := x, stuffFlag := b } := by
  unfold Fa.Coherent at h ⊢
  cases hp' : r.phase with
  | idle => exact absurd hp' hp
  | _ => simpa [hp'] using h

/-- Counting a bit of a field or gap that is not complete (43_frame_assembler.md R167, R169, R173, R176, R180). -/
theorem Fa.coherent_countDown (h : r.Coherent) (hcnt : 1 < r.cnt)
    (hsof : r.phase = .arbitrationId → r.sofPending = false) : Fa.Coherent { r with cnt := r.cnt - 1 } := by
  cases hp : r.phase with
  | idle =>
    rw [(Fa.coherent_idle hp).1 h] at hcnt
    cases hcnt
  | arbitrationId =>
    obtain ⟨-, hbyte, -⟩ := (Fa.coherent_id hp).1 h
    exact (Fa.coherent_id rfl).2 ⟨Nat.le_sub_one_of_lt hcnt, hbyte, by simp [hsof hp]⟩
  | arbitrationControl | crc | idleWait =>
    obtain ⟨-, hrest⟩ := (Fa.coherent_counting (by simp [hp])).1 h
    exact (Fa.coherent_counting (by simp)).2 ⟨Nat.le_sub_one_of_lt hcnt, hrest⟩
  | data =>
    obtain ⟨-, hle, hrest⟩ := (Fa.coherent_data hp).1 h
    exact (Fa.coherent_data rfl).2 ⟨Nat.le_sub_one_of_lt hcnt, (Nat.sub_le _ _).trans hle, hrest⟩
  | crcCheck =>
    obtain ⟨hzero, -⟩ := (Fa.coherent_check hp).1 h
    omega

end

/-- Every move of FA keeps its coherence; in `Idle` BDS must raise no `stuff_error`, which would set `fa.stuff_flag`. -/
theorem FaMove.coherent (h : FaMove s f) (hs : s.fa.Coherent) (hgap : 1 ≤ s.cfg.ifgBits)
    (herr : s.fa.phase = .idle → s.out.stuffError = false) : f.fa.Coherent := by
  cases h with
  | overrun | cancel | gapDone => rfl
  | stayIdle _ hp =>
    have hreset := (Fa.coherent_idle hp).1 hs
    simp [hreset, herr hp, Fa.Coherent, Regs.reset]
  | start _ hp =>
    have hreset := (Fa.coherent_idle hp).1 hs
    simp [hreset, Fa.Coherent, Regs.reset]
  | hold _ hp => exact Fa.coherent_of_not_idle hs hp _ _
  | sof _ hp =>
    obtain ⟨hcnt, hbyte, -⟩ := (Fa.coherent_id hp).1 hs
    exact (Fa.coherent_id (by exact hp)).2 ⟨hcnt, hbyte, fun hsof => by cases hsof⟩
  | shift _ hp hlast hsof =>
    have hidle : s.fa.phase ≠ .idle := fun hidle => by simp [State.framing, Phase.framing, hidle] at hp
    exact Fa.coherent_of_not_idle (Fa.coherent_countDown hs (State.last_false_iff.1 hlast) hsof) hidle _ _
  | gapCount _ hp hlast =>
    have hcount := Fa.coherent_countDown hs (State.last_false_iff.1 hlast) (by simp [hp])
    exact Fa.coherent_of_not_idle hcount (by simp [hp]) _ _
  | idDone _ hp hsof =>
    obtain ⟨-, hbyte, -⟩ := (Fa.coherent_id hp).1 hs
    exact (Fa.coherent_counting (.inl rfl)).2 ⟨Nat.succ_pos _, hbyte, hsof⟩
  | ctlDoneEmpty _ hp =>
    obtain ⟨-, hrest⟩ := (Fa.coherent_counting (.inl hp)).1 hs
    exact (Fa.coherent_counting (.inr (.inl rfl))).2 ⟨Nat.succ_pos _, hrest⟩
  | ctlDoneData _ hp _ hpos hle =>
    obtain ⟨-, -, hsof⟩ := (Fa.coherent_counting (.inl hp)).1 hs
    exact (Fa.coherent_data rfl).2 ⟨Nat.succ_pos _, le_rfl, Nat.pos_of_ne_zero hpos, hle, hsof⟩
  | ctlDoneIllegal _ hp =>
    obtain ⟨-, hrest⟩ := (Fa.coherent_counting (.inl hp)).1 hs
    exact (Fa.coherent_counting (.inr (.inr rfl))).2 ⟨hgap, hrest⟩
  | dataByte _ hp _ hmore =>
    obtain ⟨-, -, -, hle, hsof⟩ := (Fa.coherent_data hp).1 hs
    exact (Fa.coherent_data (by exact hp)).2
      ⟨Nat.succ_pos _, le_rfl, Nat.le_sub_one_of_lt hmore, (Nat.sub_le _ _).trans hle, hsof⟩
  | dataLast _ hp =>
    obtain ⟨-, -, -, -, hsof⟩ := (Fa.coherent_data hp).1 hs
    exact (Fa.coherent_counting (.inr (.inl rfl))).2 ⟨Nat.succ_pos _, rfl, hsof⟩
  | crcDone _ hp =>
    obtain ⟨-, hrest⟩ := (Fa.coherent_counting (.inr (.inl hp))).1 hs
    exact (Fa.coherent_check rfl).2 ⟨rfl, hrest⟩
  | check _ hp =>
    obtain ⟨-, hrest⟩ := (Fa.coherent_check hp).1 hs
    exact (Fa.coherent_counting (.inr (.inr rfl))).2 ⟨hgap, hrest⟩

/-- The byte counter of coherent registers (10_state.md R28). -/
theorem Fa.Coherent.byteCnt_le {r : Fa} (h : r.Coherent) : r.byteCnt ≤ 8 := by
  unfold Fa.Coherent at h
  cases hp : r.phase <;> simp only [hp] at h
  case idle => simp [h, Regs.reset]
  all_goals omega

/-! ### What BTR, BDS and EM leave -/

/-- A legal period is not empty (00_scope.md R7). -/
theorem periodTicks_pos {c : Config} (hl : c.Legal) : 0 < c.periodTicks := by
  obtain ⟨-, hlt, -, -⟩ := hl
  exact Nat.zero_lt_of_lt hlt

/-- Inside a bit cell or reset: BTR's counter never reaches `PERIOD_TICKS` (10_state.md R21). -/
theorem btrEffect_cnt_lt (hl : s.cfg.Legal) : (btrEffect s).btr.cnt < s.cfg.periodTicks := by
  have hpos := periodTicks_pos hl
  unfold btrEffect
  split
  · exact hpos
  · split
    · exact hpos
    · next h => exact State.atPeriod_false_iff.1 (by simpa using h)

/-- BTR counts only inside a bit cell (10_state.md R43 (a)). -/
theorem btrEffect_running_or_cnt (s : State) : (btrEffect s).btr.state = .running ∨ (btrEffect s).btr.cnt = 0 := by
  unfold btrEffect
  split
  · exact .inr rfl
  · split
    · exact .inr rfl
    · exact .inl rfl

/-- A start edge, or a running cell that is kept, leaves BTR running (40_bit_timing_recovery.md R103, R104, R106). -/
theorem btrEffect_running (h : s.startEdge = true ∨ s.btr.state ≠ .idle ∧ s.keep = true) :
    (btrEffect s).btr.state = .running := by
  rcases h with h | ⟨hst, hkeep⟩
  · obtain ⟨hst, hprev, hdom⟩ := State.startEdge_iff.1 h
    simp [btrEffect, hst, State.edge_iff.2 ⟨hprev, hdom⟩]
  · unfold btrEffect
    rw [if_neg hst, hkeep]
    split <;> rfl

/-- The run length stays below five (10_state.md R24): a run of four is at `stuff_pos` and starts again. -/
theorem bdsEffect_runLen_le (h : s.bds.runLen ≤ 4) : (bdsEffect s).bds.runLen ≤ 4 := by
  unfold bdsEffect
  split
  · split
    · rw [State.driveBds_bds]
      dsimp only
      split
      · exact Nat.zero_le _
      · next hgrow =>
        obtain ⟨-, hpos⟩ : s.differs = false ∧ s.stuffPos = false := by simpa using hgrow
        rw [State.stuffPos_false_iff] at hpos
        omega
    · exact h
  · exact Nat.zero_le _

/-- Outside the framing phases BDS holds its registers at reset and passes every sample (41_bit_destuffer.md R122). -/
theorem bdsEffect_of_not_framing (h : s.framing = false) : bdsEffect s = s.driveBds true 0 s.out.sample false := by
  simp [bdsEffect, h]

/-- EM presents the head of `em.pend`, if any, and drives no other port (44_byte_emitter.md R201 to R203). -/
theorem emEffect_out (s : State) : (emEffect s).out =
    { s.out with byteValid := !s.em.pend.isEmpty, byteData := s.em.pend.headD 0#8 } := by
  unfold emEffect
  cases hp : s.em.pend with
  | nil => rfl
  | cons b rest => cases h : s.inp.sinkReady <;> rfl

/-- EM only takes bytes away. -/
theorem emEffect_pend_length_le (s : State) : (emEffect s).em.pend.length ≤ s.em.pend.length := by
  unfold emEffect
  cases hp : s.em.pend with
  | nil => simp [hp]
  | cons b rest => cases h : s.inp.sinkReady <;> simp [hp]

@[simp] theorem State.wired_cfg (s : State) : s.wired.cfg = s.cfg := rfl

theorem btrEffect_out_overrun (s : State) : (btrEffect s).out.overrun = s.out.overrun := by
  unfold btrEffect
  repeat' split
  all_goals rfl

theorem bdsEffect_out_overrun (s : State) : (bdsEffect s).out.overrun = s.out.overrun := by
  unfold bdsEffect
  repeat' split
  all_goals rfl

/-- The strobes of BTR and BDS leave the fault port alone. -/
theorem wired_out_overrun (s : State) : s.wired.out.overrun = s.out.overrun :=
  (bdsEffect_out_overrun _).trans (btrEffect_out_overrun s)

/-- In `Idle` BDS reports no stuffing violation to FA (41_bit_destuffer.md R122). -/
theorem wired_stuffError_of_idle (h : s.fa.phase = .idle) : s.wired.out.stuffError = false := by
  have hframing := State.framing_false_iff.2 (.inl h)
  exact congrArg (·.out.stuffError) (bdsEffect_of_not_framing (s := s.withWires (btrEffect s).out) hframing)

/-! ### What a step leaves in each register -/

/-- The state a live tick that begins in `s` ends in, `f` being what FA's operation answers. -/
def tickResult (s f : State) : State :=
  commit s (btrEffect s) (bdsEffect (s.withWires (btrEffect s).out)) (crcEffect s.wired) (emEffect s.wired) f

/-- A live tick is a move of FA on the wired snapshot, and the commit. -/
theorem step_live (hlive : s.Live) (h : step s = .next u) :
    ∃ f, FaMove s.beginTick.wired f ∧ u = tickResult s.beginTick f := by
  obtain ⟨-, -, ho, hrst⟩ := hlive
  obtain ⟨-, -, a, f, ha, hf, hu⟩ := live_tick hrst ho h
  exact ⟨f, fa_move ha hf, hu⟩

/-- The three ways a step answers a next state: a reset, a halted tick, or a live tick. -/
theorem step_outcomes (h : step s = .next u) : s.cfg.Legal ∧
    (s.beginTick.inp.rst = true ∧ u = s.beginTick.resetTick ∨
     s.beginTick.inp.rst = false ∧ s.overrun = true ∧ u = s.beginTick.stayHalted ∨
     s.Live ∧ ∃ f, FaMove s.beginTick.wired f ∧ u = tickResult s.beginTick f) := by
  obtain ⟨hl, hreset | hhalt | ⟨hrst, ho, hrep, -⟩⟩ := step_next_cases h
  · exact ⟨hl, .inl hreset⟩
  · exact ⟨hl, .inr (.inl hhalt)⟩
  · have hlive : s.Live := ⟨hl, hrep, ho, hrst⟩
    exact ⟨hl, .inr (.inr ⟨hlive, step_live hlive h⟩)⟩

@[simp] theorem tickResult_cfg (s f : State) : (tickResult s f).cfg = s.cfg := commit_cfg ..

/-- The registers after a live tick: all at reset but the fault bit, or each from its own component. -/
theorem tickResult_registers (ho : s.overrun = false) (h : FaMove s.wired f) :
    (tickResult s f).toRegs = { Regs.reset with overrun := true } ∨
    (tickResult s f).toRegs =
      { btr := (btrEffect s).btr, bds := (bdsEffect (s.withWires (btrEffect s).out)).bds
        crc := (crcEffect s.wired).crc, fa := f.fa
        em := if s.em.pend = [] then f.em else (emEffect s.wired).em, overrun := false } := by
  unfold tickResult
  rcases h.eq_raiseOverrun_or with rfl | hf
  · rw [commit_of_overrun rfl]
    exact .inl rfl
  · rw [commit_of_ok (hf.trans ho)]
    exact .inr rfl

/-- The ports after a live tick: EM's, with the old `stuff_flag` and the new fault bit (10_state.md R38). -/
theorem tickResult_out (ho : s.overrun = false) (hz : s.out.overrun = false) (h : FaMove s.wired f) :
    (tickResult s f).out =
      { (emEffect s.wired).out with stuffFlag := s.fa.stuffFlag, overrun := (tickResult s f).overrun } := by
  have hout : (emEffect s.wired).out.overrun = false := by rw [emEffect_out]; exact (wired_out_overrun s).trans hz
  unfold tickResult
  rcases h.eq_raiseOverrun_or with rfl | hf
  · rw [commit_of_overrun rfl]
    rfl
  · rw [commit_of_ok (hf.trans ho)]
    exact congrArg (fun x => { (emEffect s.wired).out with stuffFlag := s.fa.stuffFlag, overrun := x }) hout

/-! ### The invariant and the bounds over a step -/

/-- The invariant reads the registers and the period only; halted or not, registers at reset meet it. -/
theorem inv_of_reset (hl : s.cfg.Legal) {b : Bool} (hr : s.toRegs = { Regs.reset with overrun := b }) : s.Inv := by
  have hpos := periodTicks_pos hl
  rw [State.Inv, State.Representable, State.coherent_iff, hr]
  refine ⟨⟨hpos, ?_⟩, ⟨fun _ => ⟨rfl, rfl⟩, rfl⟩, fun h => ?_⟩
  · simp [Regs.reset]
  · exact congrArg (fun x => { Regs.reset with overrun := x }) h

/-- BTR waits only while FA is in `Idle`: a start edge starts both, and FA in a frame keeps a running cell (10_state.md
R43 (b)). -/
theorem FaMove.btr_running (h : FaMove s.wired f) (hs : s.btr.state = .idle → s.fa.phase = .idle)
    (hp : f.fa.phase ≠ .idle) : (btrEffect s).btr.state = .running := by
  obtain ⟨hrun, hphase | hedge⟩ := h.run_of_not_idle hp
  · exact btrEffect_running (.inr ⟨fun hidle => hphase (hs hidle), State.keep_iff.2 ⟨hrun, hphase⟩⟩)
  · exact btrEffect_running (.inl hedge)

/-- The commit of a live tick keeps the invariant. -/
theorem tickResult_inv (hl : s.cfg.Legal) (ho : s.overrun = false) (hrep : s.Representable) (hc : s.Coherent)
    (h : FaMove s.wired f) : (tickResult s f).Inv := by
  obtain hr | hr := tickResult_registers ho h
  · exact inv_of_reset (by rwa [tickResult_cfg]) hr
  · obtain ⟨-, hrun, hcnt, -, hpend⟩ := hrep
    obtain ⟨hbtr, hfa⟩ := State.coherent_iff.1 hc
    have ⟨_, _, hgap, hgap'⟩ := hl
    have hfa' : f.fa.Coherent := h.coherent (s := s.wired) hfa hgap (wired_stuffError_of_idle (s := s))
    have hcnt' : f.fa.cnt ≤ max s.fa.cnt (max 15 s.cfg.ifgBits) := h.cnt_le
    have hem : (if s.em.pend = [] then f.em else (emEffect s.wired).em).pend.length ≤ 2 := by
      split
      · exact h.pend_length_le hpend
      · exact (emEffect_pend_length_le s.wired).trans hpend
    rw [State.Inv, State.Representable, State.coherent_iff, hr, tickResult_cfg]
    refine ⟨⟨btrEffect_cnt_lt hl, bdsEffect_runLen_le hrun, ?_, hfa'.byteCnt_le, hem⟩, ⟨fun hidle => ?_, hfa'⟩, ?_⟩
    · exact hcnt'.trans (by omega)
    · refine ⟨(btrEffect_running_or_cnt s).resolve_left fun hst => ?_, ?_⟩
      · cases hst.symm.trans hidle
      · by_contra hp
        cases (h.btr_running (fun hs => (hbtr hs).2) hp).symm.trans hidle
    · exact fun hover => by cases hover

/-- No move of FA carries `fa.cnt` beyond what its phase loads it with (10_state.md R27). -/
theorem FaMove.fieldBounds (h : FaMove s f) (hs : s.FieldBounds) : f.FieldBounds := by
  obtain ⟨hid, hctl, hcrc, hgap⟩ := hs
  cases h with
  | overrun | cancel | gapDone => simp [State.FieldBounds, Regs.reset]
  | stayIdle | hold | sof => exact ⟨hid, hctl, hcrc, hgap⟩
  | shift | gapCount => exact ⟨fun hp => (Nat.sub_le ..).trans (hid hp), fun hp => (Nat.sub_le ..).trans (hctl hp),
      fun hp => (Nat.sub_le ..).trans (hcrc hp), fun hp => (Nat.sub_le ..).trans (hgap hp)⟩
  | dataByte _ hp => simp [State.FieldBounds, hp]
  | start | idDone | ctlDoneEmpty | ctlDoneData | ctlDoneIllegal | dataLast | crcDone | check =>
    simp [State.FieldBounds]

/-- The longest way to `Idle` from coherent, bounded counters: start bit 1, identifier 11, control 7, data 64, CRC field
15, gap (43_frame_assembler.md R186). -/
theorem bitsToIdle_le (hs : s.fa.Coherent) (hb : s.FieldBounds) : bitsToIdle s ≤ 98 + s.cfg.ifgBits := by
  obtain ⟨hid, hctl, hcrc, hgap⟩ := hb
  unfold bitsToIdle
  unfold Fa.Coherent at hs
  cases hp : s.fa.phase <;> simp only [hp] at hs ⊢
  case arbitrationId =>
    have hsof : s.fa.sofPending.toNat ≤ 1 := Bool.toNat_le _
    have := hid hp
    omega
  case arbitrationControl => have := hctl hp; omega
  case crc => have := hcrc hp; omega
  case idleWait => have := hgap hp; omega
  all_goals omega

end

/-! ### The obligations -/

/-- Settles O30: a reset and an Overrun leave reset registers, a halted tick changes none, and in a commit each
component keeps its own part of the invariant (`tickResult_inv`). -/
theorem registerInvariantKeptByEveryStep : Obligations.RegisterInvariantKeptByEveryStep := by
  unfold Obligations.RegisterInvariantKeptByEveryStep
  intro s t hinv h
  obtain ⟨hl, ⟨-, rfl⟩ | ⟨-, -, rfl⟩ | ⟨⟨-, hrep, ho, -⟩, f, hf, rfl⟩⟩ := step_outcomes h
  · exact inv_of_reset (b := false) hl rfl
  · exact hinv
  · obtain ⟨-, hc, -⟩ := hinv
    exact tickResult_inv hl ho hrep hc hf

/-- Settles O31: registers at reset meet the invariant. -/
theorem resetStateMeetsTheInvariant : Obligations.ResetStateMeetsTheInvariant := by
  unfold Obligations.ResetStateMeetsTheInvariant
  intro c hl
  exact inv_of_reset (b := false) hl rfl

/-- Settles O32: reset and Overrun reset the destuffer, and outside the framing phases `BDS.BYPASS` does. -/
theorem destufferResetOutsideFraming : Obligations.DestufferResetOutsideFraming := by
  unfold Obligations.DestufferResetOutsideFraming
  intro s t hframing ho h
  suffices hbds : t.bds = Regs.reset.bds by rw [hbds]; exact ⟨rfl, rfl⟩
  obtain ⟨-, ⟨-, rfl⟩ | ⟨-, hhalt, -⟩ | ⟨-, f, hf, rfl⟩⟩ := step_outcomes h
  · rfl
  · rw [ho] at hhalt
    cases hhalt
  · obtain hr | hr := tickResult_registers (s := s.beginTick) ho hf <;> refine (congrArg Regs.bds hr).trans ?_
    · rfl
    · exact congrArg (·.bds) (bdsEffect_of_not_framing (s := s.beginTick.withWires _) hframing)

/-- Settles O48: the byte ports are those EM drives, which no strobe touches; `tickResult_out` gives the other two. -/
theorem portsShowThePreTickState : Obligations.PortsShowThePreTickState := by
  unfold Obligations.PortsShowThePreTickState
  intro s t hlive h
  obtain ⟨f, hf, rfl⟩ := step_live hlive h
  obtain ⟨-, -, ho, -⟩ := hlive
  rw [tickResult_out (s := s.beginTick) ho rfl hf, emEffect_out]
  exact ⟨rfl, rfl, rfl, rfl⟩

/-- Settles O60: each step keeps the bounds, FA's moves by `FaMove.fieldBounds`, and the bounds with the invariant of
O30 give the figure. -/
theorem fieldCountersStayInRange : Obligations.FieldCountersStayInRange := by
  unfold Obligations.FieldCountersStayInRange
  intro s t hinv hb h
  suffices hbounds : t.FieldBounds by
    obtain ⟨-, hc, -⟩ := registerInvariantKeptByEveryStep s t hinv h
    exact ⟨hbounds, bitsToIdle_le (State.coherent_iff.1 hc).2 hbounds⟩
  obtain ⟨-, ⟨-, rfl⟩ | ⟨-, -, rfl⟩ | ⟨⟨-, -, ho, -⟩, f, hf, rfl⟩⟩ := step_outcomes h
  · simp [State.FieldBounds, Regs.reset]
  · exact hb
  · obtain hr | hr := tickResult_registers (s := s.beginTick) ho hf <;>
      rw [State.FieldBounds, hr, tickResult_cfg]
    · simp [Regs.reset]
    · rw [← State.wired_cfg, ← hf.cfg_eq]
      exact hf.fieldBounds hb

end Sys2Proof.Machine

/-! PROOFS. The environment's memory (20_memory.md): the byte stream the sink has taken, and what a step adds to it. -/

namespace Sys2Proof.Machine

/-- EM pushes the byte it presents exactly when the sink is ready (44_byte_emitter.md R201 to R203). -/
theorem emEffect_stream (s : State) : (emEffect s).stream = s.stream ++
    (if (emEffect s).out.byteValid = true ∧ s.inp.sinkReady = true then [(emEffect s).out.byteData] else []) := by
  rw [emEffect_out]
  unfold emEffect
  cases hp : s.em.pend with
  | nil => simp
  | cons b rest => cases hready : s.inp.sinkReady <;> simp

@[simp] theorem tickResult_inp (s f : State) : (tickResult s f).inp = s.inp := commit_inp ..

@[simp] theorem tickResult_stream (s f : State) : (tickResult s f).stream = (emEffect s.wired).stream := commit_stream ..

/-- Settles O36: a reset or halted tick presents no byte and adds none; a live tick's stream and byte ports are EM's,
Overrun or not, and `emEffect_stream` relates the two. -/
theorem aByteIsWrittenExactlyOnAHandshake : Obligations.AByteIsWrittenExactlyOnAHandshake := by
  unfold Obligations.AByteIsWrittenExactlyOnAHandshake
  intro s t h
  obtain ⟨-, ⟨-, rfl⟩ | ⟨-, -, rfl⟩ | ⟨⟨-, -, ho, -⟩, f, hf, rfl⟩⟩ := step_outcomes h
  · exact (List.append_nil _).symm
  · exact (List.append_nil _).symm
  · rw [tickResult_out (s := s.beginTick) ho rfl hf, tickResult_stream, tickResult_inp]
    exact emEffect_stream s.beginTick.wired

end Sys2Proof.Machine

/-! PROOFS. The encoding of the block (30_encoding.md): the selector patterns and their decoder, the tick word, the fields
FA reads from its shift register, and the record they make. -/

namespace Sys2Proof

/-! ### The decoder and the patterns -/

/-- A word that matches a pattern is a filling of it. -/
theorem exists_fillPattern {p : List PatBit} {w : List Bool} (h : patMatches p w = true) :
    ∃ fill, w = fillPattern p fill := by
  induction p generalizing w with
  | nil => cases w with
    | nil => exact ⟨[], rfl⟩
    | cons c w => cases h
  | cons b p ih => cases w with
    | nil => cases h
    | cons c w =>
      obtain ⟨hc, hw⟩ := Bool.and_eq_true_iff.1 h
      obtain ⟨fill, rfl⟩ := ih hw
      cases b with
      | o => exact ⟨fill, congrArg (· :: _) (by simpa using hc)⟩
      | i => exact ⟨fill, congrArg (· :: _) (by simpa using hc)⟩
      | x => exact ⟨c :: fill, rfl⟩

/-- Operations of one format whose patterns a word matches both are the same (30_encoding.md R80). -/
theorem eq_of_patMatches {i j : Instr} {w : List Bool} (hf : i.format = j.format)
    (hi : patMatches (patternOf i) w = true) (hj : patMatches (patternOf j) w = true) : i = j := by
  by_contra hne
  have hconflict := rows_conflict j.format i (hf ▸ mem_rowsOf i) j (mem_rowsOf j) hne
  exact Bool.false_ne_true ((not_both_match hconflict w hi).symm.trans hj)

/-- The decoder answers the operation of the word's format whose pattern the word matches. -/
theorem decode_of_patMatches {x : Selector} {i : Instr} (hf : i.format = x.format)
    (h : patMatches (patternOf i) x.word = true) : decode x = .ok i := by
  have hmem : i ∈ rowsOf x.format := hf ▸ mem_rowsOf i
  have hwidth : x.word.length = x.format.width := by rw [patMatches_length h, patternOf_length, hf]
  have hfind : (rowsOf x.format).find? (fun j => patMatches (patternOf j) x.word) = some i := by
    cases hj : (rowsOf x.format).find? (fun j => patMatches (patternOf j) x.word) with
    | none => exact absurd h (List.find?_eq_none.1 hj i hmem)
    | some j =>
      have hjf := format_of_mem_rowsOf (List.mem_of_find?_eq_some hj)
      exact congrArg some (eq_of_patMatches (hjf.trans hf.symm) (by simpa using List.find?_some hj) h)
  rw [decode, if_pos hwidth, hfind]

/-- Settles O28: an encoding matches its own pattern, only one row of a format matches a word, and a word that matches a
pattern is a filling of it. -/
theorem decodeReadsBackEveryEncoding : Obligations.DecodeReadsBackEveryEncoding := by
  unfold Obligations.DecodeReadsBackEveryEncoding
  constructor
  · intro i fill
    exact decode_of_patMatches (x := encodeWith i fill) rfl (patMatches_fillPattern _ _)
  · rintro ⟨f, w⟩ i h
    obtain ⟨-, rfl, hmatch⟩ := decode_ok h
    obtain ⟨fill, rfl⟩ := exists_fillPattern hmatch
    exact ⟨fill, rfl⟩

/-- Settles O29: each word is decoded, or refused, by its format's rows. -/
theorem selectorWordsDecodeAsPrinted : Obligations.SelectorWordsDecodeAsPrinted := by
  unfold Obligations.SelectorWordsDecodeAsPrinted
  exact ⟨decode_y .., decode_t .., decode_t .., decode_t .., decode_s .., decode_c .., decode_e ..,
    decode_a_arbitrationId .., decode_a_arbitrationControl _ _ _ _ _ _ _ _ rfl, rfl⟩

end Sys2Proof

namespace Sys2Proof.Machine

/-! ### The ticks of a legal configuration, and their input word -/

/-- Settles O26, by `step_completes`. -/
theorem everyLegalTickCompletes : Obligations.EveryLegalTickCompletes := by
  unfold Obligations.EveryLegalTickCompletes
  intro s hl h
  exact step_completes hl h

/-- A step consumes one word of the stimulus and keeps the inputs its tick began with. -/
theorem step_stim_inp {s t : State} (h : step s = .next t) : t.stim = s.stim.tail ∧ t.inp = s.beginTick.inp := by
  obtain ⟨-, ⟨-, rfl⟩ | ⟨-, -, rfl⟩ | ⟨-, f, -, rfl⟩⟩ := step_outcomes h
  · exact ⟨rfl, rfl⟩
  · exact ⟨rfl, rfl⟩
  · exact ⟨commit_stim .., commit_inp ..⟩

/-- Settles O59: the tick begins with the inputs of the first word of the stimulus, and its operations change neither. -/
theorem inputsComeFromTheStimulusWord : Obligations.InputsComeFromTheStimulusWord := by
  unfold Obligations.InputsComeFromTheStimulusWord
  intro s t w ws hstim h
  obtain ⟨hrest, hinp⟩ := step_stim_inp h
  rw [hstim] at hrest
  rw [State.beginTick_inp, nextInput_of_stim hstim] at hinp
  exact ⟨hrest, hinp⟩

/-! ### The shift register and the fields read from it -/

/-- Shifting a bit in is the library's `shiftConcat`. -/
theorem shiftIn_eq_shiftConcat (x : Word15) (b : Bool) : shiftIn x b = x.shiftConcat b := by
  refine BitVec.eq_of_getLsbD_eq fun i hi => ?_
  cases b <;> cases i <;> simp [shiftIn, hi]

/-- Shifting a bit in doubles the word and adds the bit, modulo 2^15 (43_frame_assembler.md R161). -/
theorem shiftIn_toNat (x : Word15) (b : Bool) : (shiftIn x b).toNat = (2 * x.toNat + b.toNat) % 2 ^ 15 := by
  rw [shiftIn_eq_shiftConcat, BitVec.toNat_shiftConcat, Nat.shiftLeft_eq, Nat.mul_comm, Nat.pow_one]

/-- Each field read from a word as an unsigned number (30_encoding.md R72, R74). -/
theorem fieldBytes_toNat (x : Word15) :
    lengthCode x = x.toNat % 16 ∧ (lengthByte x).toNat = x.toNat % 16 ∧
    (idHighByte x).toNat = x.toNat / 256 % 8 ∧ (lowByte x).toNat = x.toNat % 256 ∧
    (crcHighByte x).toNat = x.toNat / 256 := by
  have hx := x.isLt
  simp only [lengthCode, lengthByte, idHighByte, lowByte, crcHighByte, BitVec.toNat_setWidth, BitVec.extractLsb'_toNat,
    Nat.shiftRight_eq_div_pow]
  omega

/-- Settles O56: `sh` by `shiftIn_toNat`, the slices by `fieldBytes_toNat`. -/
theorem shiftRegisterAndFieldValues : Obligations.ShiftRegisterAndFieldValues := by
  unfold Obligations.ShiftRegisterAndFieldValues
  exact ⟨fun s => shiftIn_toNat _ _, fieldBytes_toNat⟩

theorem bitsMsbFirst_length (n v : Nat) : (bitsMsbFirst n v).length = n := by
  induction n with
  | zero => rfl
  | succ n ih => rw [bitsMsbFirst, List.length_cons, ih]

/-- A number's low `n` bits shifted into a word: the word moves up by `n` places, the bits fill them. -/
theorem foldl_shiftIn_bitsMsbFirst_toNat (n v : Nat) (x : Word15) :
    ((bitsMsbFirst n v).foldl shiftIn x).toNat = (x.toNat * 2 ^ n + v % 2 ^ n) % 2 ^ 15 := by
  induction n generalizing x with
  | zero => simp [bitsMsbFirst, Nat.mod_one, Nat.mod_eq_of_lt x.isLt]
  | succ n ih =>
    have hv : v % 2 ^ (n + 1) = v % 2 ^ n + 2 ^ n * (v.testBit n).toNat := by
      rw [Nat.toNat_testBit, Nat.mod_pow_succ]
    rw [bitsMsbFirst, List.foldl_cons, ih, shiftIn_toNat, hv]
    calc ((2 * x.toNat + (v.testBit n).toNat) % 2 ^ 15 * 2 ^ n + v % 2 ^ n) % 2 ^ 15
        = ((2 * x.toNat + (v.testBit n).toNat) * 2 ^ n + v % 2 ^ n) % 2 ^ 15 :=
          ((Nat.mod_modEq _ _).mul_right _).add_right _
      _ = (x.toNat * 2 ^ (n + 1) + (v % 2 ^ n + 2 ^ n * (v.testBit n).toNat)) % 2 ^ 15 := by ring_nf

/-- The low `n` bits of a word are the last `n` bits shifted in. -/
theorem foldl_shiftIn_bitsMsbFirst_mod {n : Nat} (hn : n ≤ 15) (v : Nat) (x : Word15) :
    ((bitsMsbFirst n v).foldl shiftIn x).toNat % 2 ^ n = v % 2 ^ n := by
  rw [foldl_shiftIn_bitsMsbFirst_toNat, Nat.mod_mod_of_dvd _ (Nat.pow_dvd_pow 2 hn), Nat.mul_add_mod_self_right,
    Nat.mod_mod]

/-- The bytes of an identifier are those of a word that ends in it. -/
theorem identBytes_of_mod {x : Word15} {ident : BitVec 11} (h : x.toNat % 2 ^ 11 = ident.toNat) :
    [idHighByte x, lowByte x] = identBytes ident := by
  obtain ⟨-, -, hhi, hlo, -⟩ := fieldBytes_toNat x
  have hid := ident.isLt
  have h1 : idHighByte x = (ident.extractLsb' 8 3).setWidth 8 := by
    apply BitVec.eq_of_toNat_eq
    simp only [hhi, BitVec.toNat_setWidth, BitVec.extractLsb'_toNat, Nat.shiftRight_eq_div_pow]
    omega
  have h2 : lowByte x = ident.extractLsb' 0 8 := by
    apply BitVec.eq_of_toNat_eq
    simp only [hlo, BitVec.extractLsb'_toNat, Nat.shiftRight_zero]
    omega
  rw [identBytes, h1, h2]

/-- The length byte of a word that ends in a length code. -/
theorem lengthByte_of_mod {x : Word15} {v : Nat} (hv : v < 16) (h : x.toNat % 2 ^ 4 = v) :
    lengthByte x = BitVec.ofNat 8 v := by
  obtain ⟨-, hlen, -⟩ := fieldBytes_toNat x
  apply BitVec.eq_of_toNat_eq
  rw [hlen, BitVec.toNat_ofNat]
  omega

/-- The low byte of a word that ends in a data byte. -/
theorem lowByte_of_mod {x : Word15} {d : Byte} (h : x.toNat % 2 ^ 8 = d.toNat) : lowByte x = d := by
  obtain ⟨-, -, -, hlo, -⟩ := fieldBytes_toNat x
  exact BitVec.eq_of_toNat_eq (hlo.trans h)

/-! ### The record -/

/-- A word of 8 to 16 bits is read back from its two big-endian bytes (30_encoding.md R73, R83). -/
theorem setWidth_append_bytes {k : Nat} (hk : k ≤ 8) (x : BitVec (8 + k)) :
    ((x.extractLsb' 8 k).setWidth 8 ++ x.extractLsb' 0 8).setWidth (8 + k) = x := by
  refine BitVec.eq_of_getLsbD_eq fun i hi => ?_
  simp only [BitVec.getLsbD_setWidth, BitVec.getLsbD_append, BitVec.getLsbD_extractLsb']
  by_cases hlow : i < 8
  · simp [hlow, hi]
  · have hk' : i - 8 < k := by omega
    have h8 : i - 8 < 8 := by omega
    have hi' : 8 + (i - 8) = i := by omega
    simp only [hlow, hi, h8, hk', hi', if_false, decide_true, Bool.true_and]

/-- A legal length code is read back from the third byte. -/
theorem ofNat8_toNat_of_le {n : Nat} (hn : n ≤ 8) : (BitVec.ofNat 8 n).toNat = n := by
  rw [BitVec.toNat_ofNat]
  omega

/-- Reading a record off the front of a stream gives it back and leaves the rest (30_encoding.md R73, R79, R83). -/
theorem takeRecord_bytes_append {r : Record} (hr : r.WellFormed) (rest : List Byte) :
    takeRecord (r.bytes ++ rest) = some (r, rest) := by
  cases r with
  | full ident data crcField passed =>
    replace hr : data.length ≤ 8 := hr
    have hid := setWidth_append_bytes (k := 3) (by decide) ident
    have hcrc := setWidth_append_bytes (k := 7) (by decide) crcField
    have hstatus : (if passed then 1#8 else 0#8)[0] = passed := by cases passed <;> simp
    simp [Record.bytes, identBytes, crcBytes, takeRecord, ofNat8_toNat_of_le hr, Nat.not_lt.2 hr, hid, hcrc, hstatus]
  | truncated ident dlc =>
    replace hr : 8 < dlc.toNat := hr
    have hid := setWidth_append_bytes (k := 3) (by decide) ident
    have hdlc : dlc.toNat % 256 = dlc.toNat := by omega
    simp [Record.bytes, identBytes, takeRecord, hdlc, hr, hid]

/-- The third byte gives the record's length (30_encoding.md R83). -/
theorem length_bytes {r : Record} (hr : r.WellFormed) : r.bytes.length = recordLength (r.bytes.getD 2 0#8) := by
  cases r with
  | full ident data crcField passed =>
    replace hr : data.length ≤ 8 := hr
    have hthird : recordLength (BitVec.ofNat 8 data.length) = 6 + data.length := by
      rw [recordLength, ofNat8_toNat_of_le hr, if_neg (Nat.not_lt.2 hr)]
    refine Eq.trans ?_ hthird.symm
    simp only [Record.bytes, identBytes, crcBytes, List.length_append, List.length_cons, List.length_nil]
    omega
  | truncated ident dlc =>
    replace hr : 8 < dlc.toNat := hr
    have hdlc : dlc.toNat % 256 = dlc.toNat := by omega
    simp [Record.bytes, identBytes, recordLength, hdlc, hr]

/-- Settles O55: the third byte is the number of data bytes or an illegal length code, which is the length of the rest;
each field is read back from its bytes. -/
theorem recordsAreSelfDelimiting : Obligations.RecordsAreSelfDelimiting := by
  unfold Obligations.RecordsAreSelfDelimiting
  intro r rest hr
  exact ⟨takeRecord_bytes_append hr rest, length_bytes hr⟩

/-! ### FA turns bits into bytes -/

section

variable {s u : State} {p : Phase} {n m : Nat}

/-- FA alone runs the operation its priority order names (43_frame_assembler.md R162). -/
theorem runComponent_a (s : State) : runComponent .a s = exec (faArmByPriority s) s := by
  simp [runComponent, selectOp_a]

theorem State.withPassedBit_takesBit (s : State) (b : Bool) : (s.withPassedBit b).TakesBit := ⟨rfl, rfl, rfl⟩

@[simp] theorem State.withPassedBit_fa (s : State) (b : Bool) : (s.withPassedBit b).fa = s.fa := rfl

theorem State.withPassedBit_sh (s : State) (b : Bool) : (s.withPassedBit b).sh = shiftIn s.fa.shreg b :=
  congrArg (shiftIn s.fa.shreg) (Bool.not_not b)

/-- Feeding FA changes no configuration. -/
theorem feedAssembler_cfg {bits : List Bool} {bytes : List Byte} (h : feedAssembler s bits = some (bytes, u)) :
    u.cfg = s.cfg := by
  induction bits generalizing s bytes with
  | nil => cases h; rfl
  | cons b bits ih =>
    rw [feedAssembler] at h
    split at h
    · next t hb =>
      split at h
      · next bytes' u' hbits =>
        cases h
        rw [runComponent_a] at hb
        obtain ⟨hcfg, -⟩ := exec_keeps_environment hb
        exact (ih hbits).trans hcfg
      · cases h
    · cases h
    · cases h

/-- FA is in phase `p` of a frame whose start bit has passed, with `n` bits of the field and `m` data bytes to come. -/
structure State.Awaits (s : State) (p : Phase) (n m : Nat) : Prop where
  phase : s.fa.phase = p
  cnt : s.fa.cnt = n
  byteCnt : s.fa.byteCnt = m
  sofPending : s.fa.sofPending = false

/-- One bit to come is the last (43_frame_assembler.md R161). -/
theorem State.Awaits.last (hs : s.Awaits p 1 m) : s.last = true := State.last_iff.2 hs.cnt.le

/-- A bit that arrives is not yet taken. -/
theorem State.Awaits.withPassedBit (hs : s.Awaits p n m) (b : Bool) : (s.withPassedBit b).Awaits p n m :=
  ⟨hs.phase, hs.cnt, hs.byteCnt, hs.sofPending⟩

/-- A bit of a field shifted in leaves one bit less to come. -/
theorem State.Awaits.shiftFieldBit (hs : s.Awaits p (n + 1) m) : s.shiftFieldBit.Awaits p n m :=
  ⟨hs.phase, by simp [hs.cnt], hs.byteCnt, hs.sofPending⟩

/-- Feeding a bit, then the others. -/
theorem feedAssembler_cons {b : Bool} {bits : List Bool} {t : State} {bytes : List Byte}
    (hb : runComponent .a (s.withPassedBit b) = .next t) (h : feedAssembler t bits = some (bytes, u)) :
    feedAssembler s (b :: bits) = some (t.em.pend ++ bytes, u) := by
  simp [feedAssembler, hb, h]

/-- Feeding one run of bits, then another. -/
theorem feedAssembler_append {xs ys : List Bool} {bytes bytes' : List Byte} {t : State}
    (hx : feedAssembler s xs = some (bytes, t)) (hy : feedAssembler t ys = some (bytes', u)) :
    feedAssembler s (xs ++ ys) = some (bytes ++ bytes', u) := by
  induction xs generalizing s bytes with
  | nil => cases hx; exact hy
  | cons b xs ih =>
    rw [feedAssembler] at hx
    split at hx
    · next t' hb =>
      split at hx
      · next rest t'' hrest =>
        cases hx
        rw [List.append_assoc]
        exact feedAssembler_cons hb (ih hrest)
      · cases hx
    · cases hx
    · cases hx

/-- A bit that does not complete its field is shifted in and counted (43_frame_assembler.md R167, R169, R173, R176). -/
theorem runComponent_shift (hbit : s.TakesBit) (hs : s.Awaits p (n + 2) m) (hp : p.framing = true) :
    runComponent .a s = .next s.shiftFieldBit := by
  obtain ⟨hrun, hready, hb⟩ := hbit
  obtain ⟨rfl, hcnt, -, hsof⟩ := hs
  have hlast : s.last = false := State.last_false_iff.2 (by omega)
  rw [runComponent_a, faArmByPriority]
  cases hphase : s.fa.phase with
  | idle | crcCheck | idleWait => simp [hphase, Phase.framing] at hp
  | arbitrationId | arbitrationControl | data | crc =>
    simp only [hrun, hready, hb, hsof, hlast]
    rfl

/-- The bits of a field: the tick of the last one begins with the whole field in `sh`, and what FA does in it is the only
thing it hands over. -/
theorem feedAssembler_field {bits : List Bool} (hne : bits ≠ []) (hs : s.Awaits p bits.length m)
    (hp : p.framing = true) :
    ∃ u : State, u.TakesBit ∧ u.Awaits p 1 m ∧ u.sh = bits.foldl shiftIn s.fa.shreg ∧
      ∀ {t bytes}, runComponent .a u = .next t → t.em.pend = bytes → feedAssembler s bits = some (bytes, t) := by
  induction bits generalizing s with
  | nil => exact absurd rfl hne
  | cons b bits ih =>
    cases bits with
    | nil =>
      refine ⟨s.withPassedBit b, s.withPassedBit_takesBit b, hs.withPassedBit b, s.withPassedBit_sh b, ?_⟩
      rintro t bytes ht rfl
      simpa using feedAssembler_cons (bits := []) ht rfl
    | cons c bits =>
      have hb := runComponent_shift (s.withPassedBit_takesBit b) (hs.withPassedBit b) hp
      obtain ⟨u, hbit, hu, hsh, hfeed⟩ := ih (by simp) (hs.withPassedBit b).shiftFieldBit
      refine ⟨u, hbit, hu, ?_, fun ht hbytes => feedAssembler_cons hb (hfeed ht hbytes)⟩
      rw [hsh, List.foldl_cons (a := b), State.shiftFieldBit_fa, State.withPassedBit_sh]

/-- FA waits for the first bit of the data and CRC fields, with `m` data bytes to come (43_frame_assembler.md R170, R171,
R174, R175). -/
def State.AwaitsData (s : State) (m : Nat) : Prop := if m = 0 then s.Awaits .crc 15 0 else s.Awaits .data 8 m

section

variable (hbit : s.TakesBit)
include hbit

/-- The start bit (43_frame_assembler.md R166). -/
theorem runComponent_sof (hp : s.fa.phase = .arbitrationId) (hsof : s.fa.sofPending = true) :
    runComponent .a s = .next (s.writeFa { s.fa with sofPending := false }) := by
  obtain ⟨hrun, hready, hb⟩ := hbit
  have harm : faArmByPriority s = .faSof := by simp [faArmByPriority, hrun, hready, hb, hp, hsof]
  rw [runComponent_a, harm]
  rfl

/-- The last bit of the identifier (43_frame_assembler.md R168). -/
theorem runComponent_idDone (hs : s.Awaits .arbitrationId 1 m) : runComponent .a s =
    .next ((s.endField .arbitrationControl 7 s.fa.byteCnt).enqueue [idHighByte s.sh, lowByte s.sh]) := by
  obtain ⟨hrun, hready, hb⟩ := hbit
  have harm : faArmByPriority s = .faIdDone := by
    simp [faArmByPriority, hrun, hready, hb, hs.phase, hs.sofPending, hs.last]
  rw [runComponent_a, harm]
  rfl

/-- The last control bit (43_frame_assembler.md R170 to R172). -/
theorem runComponent_ctlDone (hs : s.Awaits .arbitrationControl 1 m) : runComponent .a s =
    .next (if s.dlc = 0 then s.endControl .crc 15 s.fa.byteCnt
      else if s.dlc ≤ 8 then s.endControl .data 8 s.dlc
      else s.endControl .idleWait s.cfg.ifgBits s.fa.byteCnt) := by
  obtain ⟨hrun, hready, hb⟩ := hbit
  have harm : faArmByPriority s =
      if s.dlc = 0 then .faCtlDoneEmpty else if s.dlc ≤ 8 then .faCtlDoneData else .faCtlDoneIllegal := by
    simp [faArmByPriority, hrun, hready, hb, hs.phase, hs.last]
  rw [runComponent_a, harm]
  repeat' split
  all_goals rfl

/-- The last bit of a data byte (43_frame_assembler.md R174, R175). -/
theorem runComponent_dataDone (hs : s.Awaits .data 1 m) : runComponent .a s =
    .next ((if 1 < m then s.endField .data 8 (m - 1) else s.endField .crc 15 0).enqueue [lowByte s.sh]) := by
  obtain ⟨hrun, hready, hb⟩ := hbit
  have harm : faArmByPriority s = if 1 < m then .faDataByte else .faDataLast := by
    simp [faArmByPriority, hrun, hready, hb, hs.phase, hs.last, hs.byteCnt]
  rw [runComponent_a, harm]
  split
  · rw [← hs.phase, ← hs.byteCnt]
    rfl
  · rfl

/-- The last bit of the CRC field (43_frame_assembler.md R177). -/
theorem runComponent_crcDone (hs : s.Awaits .crc 1 m) : runComponent .a s =
    .next ((s.endField .crcCheck 0 s.fa.byteCnt).enqueue [crcHighByte s.sh, lowByte s.sh]) := by
  obtain ⟨hrun, hready, hb⟩ := hbit
  have harm : faArmByPriority s = .faCrcDone := by simp [faArmByPriority, hrun, hready, hb, hs.phase, hs.last]
  rw [runComponent_a, harm]
  rfl

end

/-- A field of `n` bits: its last bit arrives with the field's value in the low bits of `sh`. -/
theorem feedAssembler_bitVec (hpos : 0 < n) (hn : n ≤ 15) (hs : s.Awaits p n m) (hp : p.framing = true) (v : BitVec n) :
    ∃ u : State, u.TakesBit ∧ u.Awaits p 1 m ∧ u.sh.toNat % 2 ^ n = v.toNat ∧
      ∀ {t bytes}, runComponent .a u = .next t → t.em.pend = bytes →
        feedAssembler s (bitsMsbFirst n v.toNat) = some (bytes, t) := by
  have hlen := bitsMsbFirst_length n v.toNat
  obtain ⟨u, hbit, hu, hsh, hfeed⟩ :=
    feedAssembler_field (List.ne_nil_of_length_pos (hlen.symm ▸ hpos)) (hlen.symm ▸ hs) hp
  refine ⟨u, hbit, hu, ?_, hfeed⟩
  rw [hsh, foldl_shiftIn_bitsMsbFirst_mod hn, Nat.mod_eq_of_lt v.isLt]

/-- FA in the tick after `FA.START`: the start bit is still to come, then the identifier (43_frame_assembler.md R165). -/
structure State.FrameStarted (s : State) : Prop where
  phase : s.fa.phase = .arbitrationId
  cnt : s.fa.cnt = 11
  sofPending : s.fa.sofPending = true
  byteCnt : s.fa.byteCnt = 0

/-- The start bit is consumed and hands nothing over (43_frame_assembler.md R166). -/
theorem feedAssembler_sof (hs : s.FrameStarted) (b : Bool) :
    ∃ t, feedAssembler s [b] = some ([], t) ∧ t.Awaits .arbitrationId 11 0 := by
  have hrun := runComponent_sof (s.withPassedBit_takesBit b) hs.phase hs.sofPending
  exact ⟨_, feedAssembler_cons hrun rfl, hs.phase, hs.cnt, hs.byteCnt, rfl⟩

/-- The 11 identifier bits become the identifier's two bytes (30_encoding.md R72, R74). -/
theorem feedAssembler_ident (hs : s.Awaits .arbitrationId 11 m) (ident : BitVec 11) :
    ∃ t, feedAssembler s (bitsMsbFirst 11 ident.toNat) = some (identBytes ident, t) ∧
      t.Awaits .arbitrationControl 7 m := by
  obtain ⟨u, hbit, hu, hmod, hfeed⟩ := feedAssembler_bitVec (by decide) (by decide) hs rfl ident
  exact ⟨_, hfeed (runComponent_idDone hbit hu) (identBytes_of_mod hmod), rfl, rfl, hu.byteCnt, hu.sofPending⟩

/-- The 7 control bits: the last one arrives with the length code in `dlc`, and hands over the length byte. -/
theorem feedAssembler_control (hs : s.Awaits .arbitrationControl 7 m) (c2 c1 c0 : Bool) {v : Nat} (hv : v < 16) :
    ∃ u : State, u.TakesBit ∧ u.Awaits .arbitrationControl 1 m ∧ u.dlc = v ∧
      ∀ {q i j}, runComponent .a u = .next (u.endControl q i j) →
        feedAssembler s ([c2, c1, c0] ++ bitsMsbFirst 4 v) = some ([BitVec.ofNat 8 v], u.endControl q i j) := by
  obtain ⟨u, hbit, hu, hsh, hfeed⟩ :=
    feedAssembler_field (bits := [c2, c1, c0] ++ bitsMsbFirst 4 v) (List.cons_ne_nil _ _) hs rfl
  have hmod : u.sh.toNat % 2 ^ 4 = v := by
    rw [hsh, List.foldl_append, foldl_shiftIn_bitsMsbFirst_mod (by decide)]
    exact Nat.mod_eq_of_lt hv
  obtain ⟨hdlc, -⟩ := fieldBytes_toNat u.sh
  exact ⟨u, hbit, hu, hdlc.trans hmod, fun ht => hfeed ht (congrArg ([·]) (lengthByte_of_mod hv hmod))⟩

/-- The 8 bits of a data byte become that byte (43_frame_assembler.md R173 to R175). -/
theorem feedAssembler_dataByte (hs : s.AwaitsData (m + 1)) (d : Byte) :
    ∃ t, feedAssembler s (bitsMsbFirst 8 d.toNat) = some ([d], t) ∧ t.AwaitsData m := by
  obtain ⟨u, hbit, hu, hmod, hfeed⟩ := feedAssembler_bitVec (by decide) (by decide) hs rfl d
  refine ⟨_, hfeed (runComponent_dataDone hbit hu) (congrArg ([·]) (lowByte_of_mod hmod)), ?_⟩
  cases m with
  | zero => exact ⟨rfl, rfl, rfl, hu.sofPending⟩
  | succ m => exact ⟨rfl, rfl, rfl, hu.sofPending⟩

/-- The bits of the data field become its bytes (30_encoding.md R73). -/
theorem feedAssembler_data {data : List Byte} (hs : s.AwaitsData data.length) :
    ∃ t, feedAssembler s (data.flatMap fun d => bitsMsbFirst 8 d.toNat) = some (data, t) ∧ t.Awaits .crc 15 0 := by
  induction data generalizing s with
  | nil => exact ⟨s, rfl, hs⟩
  | cons d data ih =>
    obtain ⟨t, hd, ht⟩ := feedAssembler_dataByte hs d
    obtain ⟨u, hdata, hu⟩ := ih ht
    exact ⟨u, feedAssembler_append hd hdata, hu⟩

/-- The 15 bits of the CRC field become its two bytes (43_frame_assembler.md R176, R177). -/
theorem feedAssembler_crc (hs : s.Awaits .crc 15 m) (crcField : Word15) :
    ∃ t, feedAssembler s (bitsMsbFirst 15 crcField.toNat) = some (crcBytes crcField, t) ∧ t.fa.phase = .crcCheck := by
  obtain ⟨u, hbit, hu, hmod, hfeed⟩ := feedAssembler_bitVec (by decide) (by decide) hs rfl crcField
  have hword : u.sh = crcField := BitVec.eq_of_toNat_eq ((Nat.mod_eq_of_lt u.sh.isLt).symm.trans hmod)
  exact ⟨_, hfeed (runComponent_crcDone hbit hu) (congrArg crcBytes hword), rfl⟩

/-- The bits of a frame up to the control field: start bit, identifier, three control bits, length code (30_encoding.md
R71). -/
def headerBits (ident : BitVec 11) (b0 c2 c1 c0 : Bool) (code : Nat) : List Bool :=
  b0 :: bitsMsbFirst 11 ident.toNat ++ [c2, c1, c0] ++ bitsMsbFirst 4 code

variable (b0 c2 c1 c0 : Bool)

/-- The last header bit arrives with the length code in `dlc`; the header gives the identifier and the length byte. -/
theorem feedAssembler_header (hs : s.FrameStarted) (ident : BitVec 11) {v : Nat} (hv : v < 16) :
    ∃ u : State, u.TakesBit ∧ u.Awaits .arbitrationControl 1 0 ∧ u.dlc = v ∧
      ∀ {q i j}, runComponent .a u = .next (u.endControl q i j) →
        feedAssembler s (headerBits ident b0 c2 c1 c0 v) =
          some (identBytes ident ++ [BitVec.ofNat 8 v], u.endControl q i j) := by
  obtain ⟨t, hsof, ht⟩ := feedAssembler_sof hs b0
  obtain ⟨t', hident, ht'⟩ := feedAssembler_ident ht ident
  obtain ⟨u, hbit, hu, hdlc, hcontrol⟩ := feedAssembler_control ht' c2 c1 c0 hv
  refine ⟨u, hbit, hu, hdlc, fun hend => ?_⟩
  rw [headerBits, List.append_assoc]
  exact feedAssembler_append (feedAssembler_append hsof hident) (hcontrol hend)

/-- After the header of a legal length code FA waits for that many data bytes. -/
theorem feedAssembler_header_legal (hs : s.FrameStarted) (ident : BitVec 11) {v : Nat} (hv : v ≤ 8) :
    ∃ t, feedAssembler s (headerBits ident b0 c2 c1 c0 v) = some (identBytes ident ++ [BitVec.ofNat 8 v], t) ∧
      t.AwaitsData v := by
  obtain ⟨u, hbit, hu, rfl, hfeed⟩ := feedAssembler_header b0 c2 c1 c0 hs ident (v := v) (hv.trans_lt (by decide))
  have hrun := runComponent_ctlDone hbit hu
  by_cases h0 : u.dlc = 0
  · rw [if_pos h0] at hrun
    exact ⟨_, hfeed hrun, (if_pos h0).mpr ⟨rfl, rfl, hu.byteCnt, hu.sofPending⟩⟩
  · rw [if_neg h0, if_pos hv] at hrun
    exact ⟨_, hfeed hrun, (if_neg h0).mpr ⟨rfl, rfl, rfl, hu.sofPending⟩⟩

/-- The header of an illegal length code is the whole record: FA waits for the gap. -/
theorem feedAssembler_header_illegal (hs : s.FrameStarted) (ident : BitVec 11) {dlc : BitVec 4}
    (hdlc : 8 < dlc.toNat) :
    ∃ t, feedAssembler s (headerBits ident b0 c2 c1 c0 dlc.toNat) = some ((Record.truncated ident dlc).bytes, t) ∧
      t.fa.phase = .idleWait ∧ t.fa.cnt = t.cfg.ifgBits := by
  obtain ⟨u, hbit, hu, hcode, hfeed⟩ := feedAssembler_header b0 c2 c1 c0 hs ident dlc.isLt
  have hrun := runComponent_ctlDone hbit hu
  rw [if_neg (by omega), if_neg (by omega)] at hrun
  have hrecord := hfeed hrun
  rw [BitVec.ofNat_toNat] at hrecord
  exact ⟨_, hrecord, rfl, rfl⟩

end

/-- Settles O54: the header, the data field and the CRC field hand over their bytes one after the other, and FA.CHECK the
status byte; an illegal length code ends the record after the header. -/
theorem frameBitsBecomeTheRecord : Obligations.FrameBitsBecomeTheRecord := by
  unfold Obligations.FrameBitsBecomeTheRecord
  intro s ident b0 c2 c1 c0 hp hcnt hsof hbyte
  have hs : s.FrameStarted := ⟨hp, hcnt, hsof, hbyte⟩
  constructor
  · intro data crcField hlen
    obtain ⟨t, hheader, ht⟩ := feedAssembler_header_legal b0 c2 c1 c0 hs ident hlen
    obtain ⟨t', hdata, ht'⟩ := feedAssembler_data ht
    obtain ⟨u, hcrc, hu⟩ := feedAssembler_crc ht' crcField
    have hfeed := feedAssembler_append (feedAssembler_append hheader hdata) hcrc
    refine ⟨u, hfeed, hu, _, rfl, rfl, congrArg Config.ifgBits (feedAssembler_cfg hfeed), ?_⟩
    simp [Record.bytes, statusByte]
  · intro dlc hdlc
    obtain ⟨t, hfeed, hphase, hgap⟩ := feedAssembler_header_illegal b0 c2 c1 c0 hs ident hdlc
    exact ⟨t, hfeed, hphase, by rw [hgap, feedAssembler_cfg hfeed]⟩

end Sys2Proof.Machine

/-! PROOFS. Bit timing recovery (40_bit_timing_recovery.md): what BTR's six operations do, what a step leaves of
them, and the runs of ticks inside a bit cell. -/

namespace Sys2Proof.Machine

section

variable {s t f : State}

/-! ### What BTR does in each of its situations -/

/-- No edge while waiting (40_bit_timing_recovery.md R102). -/
theorem btrEffect_of_wait (hst : s.btr.state = .idle) (hedge : s.edge = false) :
    btrEffect s = s.driveBtr .idle 0 false false := by
  simp [btrEffect, hst, hedge]

/-- The start edge (40_bit_timing_recovery.md R103). -/
theorem btrEffect_of_startEdge (h : s.startEdge = true) : btrEffect s = s.driveBtr .running 0 true false := by
  obtain ⟨hst, hprev, hdom⟩ := State.startEdge_iff.1 h
  simp [btrEffect, hst, State.edge_iff.2 ⟨hprev, hdom⟩]

/-- Inside a bit cell (40_bit_timing_recovery.md R104, R105). -/
theorem btrEffect_inside_cell (hst : s.btr.state = .running) (hcnt : s.btr.cnt + 1 < s.cfg.periodTicks) :
    btrEffect s = s.driveBtr .running s.nextCnt false s.atSetup := by
  simp [btrEffect, hst, State.atPeriod_false_iff.2 hcnt]

/-- The last tick of a bit cell (40_bit_timing_recovery.md R106, R107). -/
theorem btrEffect_end_of_cell (hst : s.btr.state = .running) (hcnt : s.cfg.periodTicks ≤ s.btr.cnt + 1) :
    btrEffect s = s.driveBtr (if s.keep then .running else .idle) 0 true false := by
  simp [btrEffect, hst, State.atPeriod_iff.2 hcnt]

/-! ### What a step leaves of BTR -/

/-- BDS drives its own two strobes only. -/
theorem bdsEffect_out (s : State) : ∃ x y, (bdsEffect s).out = { s.out with bitReady := x, stuffError := y } := by
  unfold bdsEffect
  split
  · split <;> exact ⟨_, _, rfl⟩
  · exact ⟨_, _, rfl⟩

/-- The strobes of a live step are BTR's, Overrun or not; without Overrun so are its registers. -/
theorem step_btr (hlive : s.Live) (h : step s = .next t) :
    t.out.boundary = (btrEffect s.beginTick).out.boundary ∧ t.out.sample = (btrEffect s.beginTick).out.sample ∧
    (t.overrun = false → t.btr = (btrEffect s.beginTick).btr) := by
  obtain ⟨f, hf, rfl⟩ := step_live hlive h
  obtain ⟨-, -, ho, -⟩ := hlive
  obtain ⟨x, y, hout⟩ : ∃ x y, s.beginTick.wired.out =
    { (btrEffect s.beginTick).out with bitReady := x, stuffError := y } := bdsEffect_out _
  rw [tickResult_out (s := s.beginTick) ho rfl hf, emEffect_out, hout]
  refine ⟨rfl, rfl, fun hover => ?_⟩
  obtain hr | hr := tickResult_registers (s := s.beginTick) ho hf <;> rw [hr] at hover ⊢
  cases hover

/-- A step without a reset that does not end halted was a live one. -/
theorem live_of_step (hrst : s.beginTick.inp.rst = false) (h : step s = .next t) (ho : t.overrun = false) :
    s.Live := by
  obtain ⟨-, ⟨hreset, -⟩ | ⟨-, hhalt, rfl⟩ | ⟨hlive, -⟩⟩ := step_outcomes h
  · cases hrst.symm.trans hreset
  · cases hhalt.symm.trans ho
  · exact hlive

/-! ### Runs without a reset -/

/-- The stimulus gives the next `k` ticks, none of them a reset. -/
abbrev State.ResetFree (s : State) (k : Nat) : Prop :=
  k ≤ s.stim.length ∧ ∀ w ∈ s.stim.take k, (Inputs.ofWord w).rst = false

/-- The first step of a stretch without a reset, and the stretch it leaves. -/
theorem State.ResetFree.step {k : Nat} (hfree : s.ResetFree (k + 1)) (h : step s = .next t) :
    s.beginTick.inp.rst = false ∧ t.ResetFree k := by
  obtain ⟨hlen, hrst⟩ := hfree
  obtain ⟨hstim, -⟩ := step_stim_inp h
  cases hs : s.stim with
  | nil => simp [hs] at hlen
  | cons w ws =>
    rw [hs] at hlen hrst hstim
    refine ⟨?_, ?_⟩
    · rw [State.beginTick_inp, nextInput_of_stim hs]
      exact hrst w (by simp)
    · rw [State.ResetFree, hstim]
      exact ⟨Nat.le_of_succ_le_succ hlen, fun v hv => hrst v (List.mem_cons_of_mem _ hv)⟩

/-- A run without a reset that does not end halted did not begin halted. -/
theorem run_begins_unhalted {k : Nat} (hfree : s.ResetFree k) (h : Host.Core.run Sys2Proof.core k s = .next t)
    (ho : t.overrun = false) : s.overrun = false := by
  induction k generalizing s with
  | zero => cases h; exact ho
  | succ k ih =>
    obtain ⟨s', hstep, hrun⟩ := run_succ_next h
    obtain ⟨hrst, hfree'⟩ := hfree.step hstep
    obtain ⟨-, -, hs, -⟩ := live_of_step hrst hstep (ih hfree' hrun)
    exact hs

/-- One tick inside a bit cell (40_bit_timing_recovery.md R104, R105). -/
theorem step_inside_cell (hlive : s.Live) (hst : s.btr.state = .running) (hcnt : s.btr.cnt + 1 < s.cfg.periodTicks)
    (h : step s = .next t) (ho : t.overrun = false) :
    t.btr.state = .running ∧ t.btr.cnt = s.btr.cnt + 1 ∧
    t.out.sample = decide (t.btr.cnt = s.cfg.setupTicks) ∧ t.out.boundary = false := by
  obtain ⟨hboundary, hsample, hbtr⟩ := step_btr hlive h
  rw [btrEffect_inside_cell (s := s.beginTick) hst hcnt] at hboundary hsample hbtr
  rw [hbtr ho, hboundary, hsample]
  exact ⟨rfl, rfl, rfl, rfl⟩

/-! ### A tick that finds FA in `Idle` and no byte waiting -/

/-- The FA registers after it: a cancel clears them, a start edge starts a frame, and otherwise they stay
(43_frame_assembler.md R163 to R165). -/
def State.idleFaNext (s : State) : Fa :=
  if s.inp.run = false then Regs.reset.fa
  else if s.startEdge then { s.fa with phase := .arbitrationId, cnt := 11, sofPending := true } else s.fa

/-- FA's move in `Idle` with no byte waiting and no stuffing violation. -/
theorem FaMove.of_idle (h : FaMove s f) (hp : s.fa.phase = .idle) (hb : s.blocked = false)
    (herr : s.out.stuffError = false) : f.fa = s.idleFaNext ∧ f.em = s.em ∧ f.overrun = s.overrun := by
  unfold State.idleFaNext
  cases h with
  | overrun _ hblocked => cases hb.symm.trans hblocked
  | cancel hrun => exact ⟨(if_pos hrun).symm, rfl, rfl⟩
  | stayIdle hrun _ hedge => exact ⟨by simp [hrun, hedge, herr], rfl, rfl⟩
  | start hrun _ hedge => exact ⟨by simp [hrun, hedge, herr], rfl, rfl⟩
  | hold _ hnot => exact absurd hp hnot
  | shift _ hframing => simp [State.framing, Phase.framing, hp] at hframing
  | sof _ hphase | idDone _ hphase | ctlDoneEmpty _ hphase | ctlDoneData _ hphase | ctlDoneIllegal _ hphase
  | dataByte _ hphase | dataLast _ hphase | crcDone _ hphase | check _ hphase | gapCount _ hphase
  | gapDone _ hphase => cases hp.symm.trans hphase

/-- In `Idle` CRC clears its register (42_crc_engine.md R142). -/
theorem crcEffect_of_idle (hp : s.fa.phase = .idle) : crcEffect s = s.writeCrc 0#15 :=
  if_pos (State.crcClear_iff.2 hp)

/-- With no byte waiting EM presents none (44_byte_emitter.md R201). -/
theorem emEffect_of_empty (hpend : s.em.pend = []) : emEffect s = s.presentNothing := by
  unfold emEffect
  rw [hpend]

/-- A live step of this kind: BTR and FA move, BDS and CRC are held at reset, EM presents no byte. -/
theorem step_idle (hlive : s.Live) (hp : s.fa.phase = .idle) (hpend : s.em.pend = []) (h : step s = .next t) :
    t.toRegs =
      { btr := (btrEffect s.beginTick).btr, bds := Regs.reset.bds, crc := Regs.reset.crc
        fa := s.beginTick.idleFaNext, em := s.em, overrun := false } ∧
    t.out =
      { (btrEffect s.beginTick).out with
        byteValid := false, byteData := 0#8, stuffError := false, stuffFlag := s.fa.stuffFlag
        bitReady := (btrEffect s.beginTick).out.sample } ∧
    t.stream = s.stream := by
  obtain ⟨f, hf, rfl⟩ := step_live hlive h
  obtain ⟨-, -, ho, -⟩ := hlive
  have hbds := bdsEffect_of_not_framing (s := s.beginTick.withWires (btrEffect s.beginTick).out)
    (State.framing_false_iff.2 (.inl hp))
  have hwired : s.beginTick.wired.out =
      { (btrEffect s.beginTick).out with bitReady := (btrEffect s.beginTick).out.sample, stuffError := false } :=
    congrArg (·.out) hbds
  obtain ⟨hfa, hem, hover⟩ :=
    hf.of_idle hp (State.blocked_false_iff.2 hpend) (wired_stuffError_of_idle (s := s.beginTick) hp)
  unfold tickResult
  rw [commit_of_ok (hover.trans ho), hbds, crcEffect_of_idle (s := s.beginTick.wired) hp,
    emEffect_of_empty (s := s.beginTick.wired) hpend, State.presentNothing_out, hwired, hfa, hem]
  exact ⟨congrArg (Regs.mk _ _ _ _ · _) (if_pos hpend), rfl, rfl⟩

/-! ### The previous line level while Running -/

/-- The state with `btr.prev_dom` set to `p`. -/
def State.withPrevDom (s : State) (p : Bool) : State := { s with btr := { s.btr with prevDom := p } }

@[simp] theorem State.withPrevDom_em (s : State) (p : Bool) : (s.withPrevDom p).em = s.em := rfl
@[simp] theorem State.withPrevDom_inp (s : State) (p : Bool) : (s.withPrevDom p).inp = s.inp := rfl

/-- Running, BTR reads no edge, and it overwrites `btr.prev_dom` (40_bit_timing_recovery.md R108, R109). -/
theorem btrEffect_withPrevDom (hst : s.btr.state = .running) (p : Bool) :
    btrEffect (s.withPrevDom p) = btrEffect s := by
  have hne : s.btr.state ≠ .idle := by simp [hst]
  unfold btrEffect
  rw [if_neg hne, if_neg (by exact hne)]
  rfl

/-- BDS does not read BTR's registers. -/
theorem bdsEffect_withPrevDom (s : State) (p : Bool) :
    bdsEffect (s.withPrevDom p) = (bdsEffect s).withPrevDom p := by
  simp only [bdsEffect, apply_ite (State.withPrevDom · p)]
  rfl

/-- CRC does not read BTR's registers. -/
theorem crcEffect_withPrevDom (s : State) (p : Bool) :
    crcEffect (s.withPrevDom p) = (crcEffect s).withPrevDom p := by
  simp only [crcEffect, apply_ite (State.withPrevDom · p)]
  rfl

/-- EM does not read BTR's registers. -/
theorem emEffect_withPrevDom (s : State) (p : Bool) :
    emEffect (s.withPrevDom p) = (emEffect s).withPrevDom p := by
  unfold emEffect
  rw [State.withPrevDom_em, State.withPrevDom_inp]
  cases s.em.pend with
  | nil => rfl
  | cons b rest => cases s.inp.sinkReady <;> rfl

/-- Running, the strobes of BTR and BDS do not depend on `btr.prev_dom`. -/
theorem State.wired_withPrevDom (hst : s.btr.state = .running) (p : Bool) :
    (s.withPrevDom p).wired = s.wired.withPrevDom p := by
  have hbds := bdsEffect_withPrevDom (s.withWires (btrEffect s).out) p
  unfold State.wired
  rw [btrEffect_withPrevDom hst p]
  exact congrArg (fun d : State => (s.withWires d.out).withPrevDom p) hbds

/-- Running, FA selects the same operation: of BTR's registers it reads the start edge alone. -/
theorem selectOp_a_withPrevDom (hst : s.btr.state = .running) (p : Bool) :
    selectOp .a (s.withPrevDom p) = selectOp .a s := by
  have h := State.startEdge_of_running hst
  have h' : (s.withPrevDom p).startEdge = false := State.startEdge_of_running hst
  rw [selectOp, selectorWord, h', selectOp, selectorWord, h]
  rfl

/-- FA's operations do not read BTR's registers, and only Overrun writes them. -/
theorem exec_a_withPrevDom {a : Instr} {f' : State} {p : Bool} (ha : a.format = .a) (hf : exec a s = .next f)
    (hf' : exec a (s.withPrevDom p) = .next f') :
    f = s.raiseOverrun ∧ f' = s.raiseOverrun ∨ f.overrun = s.overrun ∧ f' = f.withPrevDom p := by
  cases a <;> cases ha <;> cases hf <;> cases hf'
  case faOverrunStart | faOverrunId | faOverrunCtl | faOverrunData | faOverrunCrc | faOverrunCheck | faOverrunGap =>
    exact .inl ⟨rfl, rfl⟩
  all_goals exact .inr ⟨rfl, rfl⟩

/-- A commit takes nothing from the `btr` of the snapshot, nor from that of BDS's, CRC's or EM's result. -/
theorem commit_withPrevDom (s b d c e f : State) (p : Bool) :
    commit (s.withPrevDom p) b (d.withPrevDom p) (c.withPrevDom p) (e.withPrevDom p) f = commit s b d c e f := rfl

/-- Running, a live tick with a given result of FA ends the same whatever `btr.prev_dom`. -/
theorem tickResult_withPrevDom (hst : s.btr.state = .running) (p : Bool) (f : State) :
    tickResult (s.withPrevDom p) f = tickResult s f := by
  have hbds := bdsEffect_withPrevDom (s.withWires (btrEffect s).out) p
  unfold tickResult
  rw [State.wired_withPrevDom hst, btrEffect_withPrevDom hst, crcEffect_withPrevDom, emEffect_withPrevDom]
  exact (congrArg (commit _ _ · _ _ _) hbds).trans (commit_withPrevDom ..)

/-- The results of FA's operation under either `btr.prev_dom` commit the same. -/
theorem commit_exec_a_withPrevDom {a : Instr} {f' : State} {p : Bool} (ha : a.format = .a) (ho : s.overrun = false)
    (hf : exec a s = .next f) (hf' : exec a (s.withPrevDom p) = .next f') (u b d c e : State) :
    commit u b d c e f' = commit u b d c e f := by
  obtain ⟨rfl, rfl⟩ | ⟨hover, rfl⟩ := exec_a_withPrevDom ha hf hf'
  · rfl
  · have hok : f.overrun = false := hover.trans ho
    rw [commit_of_ok hok, commit_of_ok (f := f.withPrevDom p) hok]
    rfl

end

/-! ### The obligations -/

/-- Settles O39: BTR reads no edge while it runs, no other component reads `btr.prev_dom`, and the commit overwrites
it. -/
theorem edgesAreIgnoredWhileRunning : Obligations.EdgesAreIgnoredWhileRunning := by
  unfold Obligations.EdgesAreIgnoredWhileRunning
  intro s p hlive hst
  obtain ⟨hl, hrep, ho, hrst⟩ := hlive
  obtain ⟨t, ht⟩ := step_completes hl (.inr (.inr hrep))
  obtain ⟨t', ht'⟩ := step_completes (s := s.withPrevDom p) hl (.inr (.inr hrep))
  obtain ⟨-, -, a, f, ha, hf, hu⟩ := live_tick hrst ho ht
  obtain ⟨-, -, a', f', ha', hf', hu'⟩ := live_tick (s := s.withPrevDom p) hrst ho ht'
  have hwired : (s.withPrevDom p).beginTick.wired = s.beginTick.wired.withPrevDom p :=
    State.wired_withPrevDom (s := s.beginTick) hst p
  rw [hwired, selectOp_a_withPrevDom (by exact hst), ha] at ha'
  cases ha'
  rw [hwired] at hf'
  refine ht'.trans (Eq.trans (congrArg _ ?_) ht.symm)
  calc t' = tickResult (s.beginTick.withPrevDom p) f' := hu'
    _ = tickResult s.beginTick f' := tickResult_withPrevDom (s := s.beginTick) hst p f'
    _ = tickResult s.beginTick f :=
      commit_exec_a_withPrevDom (s := s.beginTick.wired) (selectOp_format ha) ho hf hf' ..
    _ = t := hu.symm

/-- Settles O40, by induction on the ticks: the first is `step_inside_cell`, and the rest run from the next count of the
same cell. -/
theorem ticksInsideABitCell : Obligations.TicksInsideABitCell := by
  unfold Obligations.TicksInsideABitCell
  intro k
  induction k with
  | zero =>
    intro s t hst _ _ _ h ho
    cases h
    exact ⟨hst, rfl, fun hk => by cases hk⟩
  | succ k ih =>
    intro s t hst hlen hwords hcell h ho
    obtain ⟨s', hstep, hrun⟩ := run_succ_next h
    obtain ⟨hrst, hlen', hwords'⟩ := State.ResetFree.step ⟨hlen, hwords⟩ hstep
    have ho' := run_begins_unhalted ⟨hlen', hwords'⟩ hrun ho
    have hlive := live_of_step hrst hstep ho'
    obtain ⟨hst', hcnt, hlast⟩ := step_inside_cell hlive hst (by omega) hstep ho'
    have hcfg := configurationNeverChanges s s' hstep
    obtain ⟨hst'', hcnt', hlast'⟩ := ih s' t hst' hlen' hwords' (by rw [hcnt, hcfg]; omega) hrun ho
    refine ⟨hst'', by omega, fun _ => ?_⟩
    cases k with
    | zero => cases hrun; exact hlast
    | succ k => rw [← hcfg]; exact hlast' (Nat.succ_pos k)

/-- Settles O41: the last tick of the cell by `btrEffect_end_of_cell`, and `keep` by its definition. -/
theorem cellBoundaries : Obligations.CellBoundaries := by
  unfold Obligations.CellBoundaries
  intro s t hlive hst hcnt h
  obtain ⟨hboundary, hsample, hbtr⟩ := step_btr hlive h
  rw [btrEffect_end_of_cell (s := s.beginTick) hst hcnt.ge] at hboundary hsample hbtr
  refine ⟨hboundary, hsample, fun ho => ?_⟩
  rw [hbtr ho]
  refine ⟨rfl, ?_⟩
  rw [← State.beginTick_fa, ← State.keep_iff]
  cases s.beginTick.keep <;> simp

/-- Settles O43: with no byte waiting FA's move on a start edge is its start, and BTR, BDS, CRC and EM do in `Idle` what
their effects say. -/
theorem startEdgeStartsTimingAndFrame : Obligations.StartEdgeStartsTimingAndFrame := by
  unfold Obligations.StartEdgeStartsTimingAndFrame
  intro s t hlive hst hprev hp hpend hrun hdom h
  have hedge : s.beginTick.startEdge = true := State.startEdge_iff.2 ⟨hst, hprev, hdom⟩
  obtain ⟨hregs, hout, hstream⟩ := step_idle hlive hp hpend h
  rw [btrEffect_of_startEdge hedge] at hregs hout
  rw [State.idleFaNext, if_neg (by simp [hrun]), if_pos hedge] at hregs
  rw [hregs, hout, State.driveBtr_btr, hdom]
  exact ⟨rfl, rfl, rfl, rfl, rfl, rfl, rfl, hpend, hstream⟩

/-- Settles O44: a reset tick gives the reset values, and in a live one BTR waits and FA, cancelled or not, keeps its
registers. -/
theorem idleBusRaisesNothing : Obligations.IdleBusRaisesNothing := by
  unfold Obligations.IdleBusRaisesNothing
  intro s hl hreset hdom
  obtain ⟨hrep, -, -⟩ : s.Inv := inv_of_reset (b := false) hl hreset
  obtain ⟨t, h⟩ := step_completes hl (.inr (.inr hrep))
  refine ⟨t, h, ?_⟩
  obtain ⟨-, ⟨-, rfl⟩ | ⟨-, hhalt, -⟩ | ⟨hlive, -⟩⟩ := step_outcomes h
  · exact ⟨rfl, rfl, rfl⟩
  · rw [hreset] at hhalt
    cases hhalt
  · have hedge : s.beginTick.edge = false := by simp [State.edge, hdom]
    have hwait := btrEffect_of_wait (s := s.beginTick) (congrArg (·.btr.state) hreset) hedge
    have hfa : s.beginTick.idleFaNext = Regs.reset.fa := by
      simp [State.idleFaNext, State.startEdge, hedge, hreset]
    obtain ⟨hregs, hout, hstream⟩ := step_idle hlive (by rw [hreset]; rfl) (by rw [hreset]; rfl) h
    rw [hregs, hout, hwait, hfa, hreset, State.driveBtr_btr, hdom]
    exact ⟨rfl, rfl, hstream⟩

/-- Settles O4: format T's selection while waiting, by the edge. -/
theorem btrIdleOperations : Obligations.BtrIdleOperations := by
  unfold Obligations.BtrIdleOperations
  intro s hst
  constructor
  · intro hnone
    have hedge : s.edge = false := by rcases hnone with h | h <;> simp [State.edge, h]
    exact ⟨by simp [selectOp_t, hst, hedge], rfl⟩
  · intro hprev hdom
    exact ⟨by simp [selectOp_t, hst, State.edge_iff.2 ⟨hprev, hdom⟩], rfl⟩

/-- Settles O5: format T's selection inside a bit cell, by the sample point. -/
theorem btrCountAndSample : Obligations.BtrCountAndSample := by
  unfold Obligations.BtrCountAndSample
  intro s hst hcell
  have hper := State.atPeriod_false_iff.2 hcell
  rw [← hst]
  constructor
  · intro hsetup
    exact ⟨by simp [selectOp_t, hst, hper, State.atSetup_false_iff.2 hsetup], rfl⟩
  · intro hsetup
    exact ⟨by simp [selectOp_t, hst, hper, State.atSetup_iff.2 hsetup], rfl⟩

/-- Settles O6: format T's selection at the end of a bit cell, by `keep`; a legal sample point is not there. -/
theorem btrEndOfCell : Obligations.BtrEndOfCell := by
  unfold Obligations.BtrEndOfCell
  rintro s ⟨-, hlt, -, -⟩ hst hcell
  have hper := State.atPeriod_iff.2 hcell
  have hsetup : s.atSetup = false := State.atSetup_false_iff.2 (by omega)
  constructor
  · intro hkeep
    exact ⟨by simp [selectOp_t, hst, hper, hsetup, State.keep_iff.2 hkeep], rfl⟩
  · intro hstop
    have hkeep : s.keep = false := by rcases hstop with h | h <;> simp [State.keep, h]
    exact ⟨by simp [selectOp_t, hst, hper, hsetup, hkeep], rfl⟩

/-- Settles O7: each of the six is one drive of BTR's registers and strobes (`exec_of_format_t`). -/
theorem everyBtrOperationRecordsTheLine : Obligations.EveryBtrOperationRecordsTheLine := by
  unfold Obligations.EveryBtrOperationRecordsTheLine
  intro i s hi
  obtain ⟨st, n, x, y, h⟩ := exec_of_format_t hi s
  exact ⟨_, h, rfl, rfl, rfl, rfl, rfl, rfl, rfl⟩

end Sys2Proof.Machine

/-! PROOFS. The bit destuffer (41_bit_destuffer.md): what its operations do, when its strobes rise in a step, and what it
passes on when raw bits are fed to it. -/

namespace Sys2Proof.Machine

section

variable {s : State}

/-! ### What BDS does in each of its situations -/

theorem State.differs_false_iff : s.differs = false ↔ (!s.inp.rxDom) = s.bds.lastBit := bne_eq_false_iff_eq

/-- A framing sample: the truth table of 41_bit_destuffer.md §4 in one row. -/
theorem bdsEffect_of_sample (hf : s.framing = true) (hsample : s.out.sample = true) :
    bdsEffect s = s.driveBds s.rxBit (if s.differs || s.stuffPos then 0 else s.bds.runLen + 1) (!s.stuffPos)
      (s.stuffPos && !s.differs) := by
  simp [bdsEffect, hf, hsample]

/-- BDS alone always completes, with its effect. -/
theorem runComponent_s (s : State) : runComponent .s s = .next (bdsEffect s) := by
  have hsel := selectOp_s s
  obtain ⟨_, _, _, _, hexec⟩ := exec_of_format_s (selectOp_format hsel) s
  rw [runComponent, hsel, ← bds_effect hsel hexec]
  exact hexec

/-! ### The strobes of a tick -/

/-- The exclusions of 41_bit_destuffer.md R120, R128 (d) and 40_bit_timing_recovery.md R105. -/
def Outputs.StrobesApart (o : Outputs) : Prop :=
  (o.bitReady = true → o.sample = true) ∧
  (o.stuffError = true → o.sample = true ∧ o.bitReady = false) ∧
  ¬ (o.sample = true ∧ o.boundary = true)

/-- BTR samples only inside a bit cell, where it raises no `boundary`. -/
theorem btrEffect_sample_boundary (s : State) :
    ¬ ((btrEffect s).out.sample = true ∧ (btrEffect s).out.boundary = true) := by
  unfold btrEffect
  split
  · simp
  · split <;> simp

/-- BDS keeps BTR's strobes apart, and raises its own two only with `sample` and never together. -/
theorem bdsEffect_strobesApart (h : ¬ (s.out.sample = true ∧ s.out.boundary = true)) :
    (bdsEffect s).out.StrobesApart := by
  cases hf : s.framing with
  | false =>
    rw [bdsEffect_of_not_framing hf]
    exact ⟨id, nofun, h⟩
  | true =>
    cases hsample : s.out.sample with
    | false => simp [bdsEffect, hf, hsample, Outputs.StrobesApart]
    | true =>
      rw [bdsEffect_of_sample hf hsample]
      refine ⟨fun _ => hsample, fun herr => ⟨hsample, ?_⟩, h⟩
      obtain ⟨hpos, -⟩ : s.stuffPos = true ∧ s.differs = false := by simpa using herr
      simp [hpos]

/-! ### Feeding raw bits to BDS -/

/-- Fed `bits` in a framing phase from the registers `r`, BDS passes `out` on and raises `errs` stuffing violations. -/
def Bds.Destuffs (r : Bds) (bits out : List Bool) (errs : Nat) : Prop :=
  ∀ s : State, s.framing = true → s.bds = r → ∃ d, feedDestuffer s bits = some (out, errs, d)

variable {l b : Bool} {n errs : Nat} {bits out : List Bool}

theorem Bds.Destuffs.nil (r : Bds) : r.Destuffs [] [] 0 := fun _ _ _ => ⟨_, rfl⟩

/-- A raw bit in a framing phase: the truth table of 41_bit_destuffer.md §4. -/
theorem bdsEffect_withRawBit (hf : s.framing = true) (hs : s.bds = ⟨l, n⟩) (b : Bool) :
    bdsEffect (s.withRawBit b) =
      (s.withRawBit b).driveBds b (if b ≠ l ∨ n = 4 then 0 else n + 1) (!(n == 4)) (n == 4 && !(b != l)) := by
  rw [bdsEffect_of_sample (s := s.withRawBit b) hf rfl]
  simp [State.withRawBit, State.rxBit, State.differs, State.stuffPos, hs]

/-- One raw bit, then the others. -/
theorem Bds.Destuffs.cons (h : Bds.Destuffs ⟨b, if b ≠ l ∨ n = 4 then 0 else n + 1⟩ bits out errs) :
    Bds.Destuffs ⟨l, n⟩ (b :: bits) (if n = 4 then out else b :: out)
      (if n = 4 ∧ b = l then errs + 1 else errs) := by
  intro s hf hs
  have hstep := (runComponent_s (s.withRawBit b)).trans (congrArg _ (bdsEffect_withRawBit hf hs b))
  obtain ⟨d, hd⟩ := h ((s.withRawBit b).driveBds b _ (!(n == 4)) (n == 4 && !(b != l))) hf rfl
  refine ⟨d, ?_⟩
  rw [feedDestuffer, hstep]
  simp [hd]

/-- `BDS.PASS_NEW` (41_bit_destuffer.md R124). -/
theorem Bds.Destuffs.pass_new (hn : n ≠ 4) (hb : b ≠ l) (h : Bds.Destuffs ⟨b, 0⟩ bits out errs) :
    Bds.Destuffs ⟨l, n⟩ (b :: bits) (b :: out) errs := by
  simpa [hn] using Bds.Destuffs.cons (b := b) (l := l) (n := n) (by simpa [hb] using h)

/-- `BDS.PASS_RUN` (41_bit_destuffer.md R125). -/
theorem Bds.Destuffs.pass_run (hn : n ≠ 4) (h : Bds.Destuffs ⟨b, n + 1⟩ bits out errs) :
    Bds.Destuffs ⟨b, n⟩ (b :: bits) (b :: out) errs := by
  simpa [hn] using Bds.Destuffs.cons (b := b) (l := b) (n := n) (by simpa [hn] using h)

/-- `BDS.DESTUFF` (41_bit_destuffer.md R126). -/
theorem Bds.Destuffs.destuff (hb : b ≠ l) (h : Bds.Destuffs ⟨b, 0⟩ bits out errs) :
    Bds.Destuffs ⟨l, 4⟩ (b :: bits) out errs := by
  simpa [hb] using Bds.Destuffs.cons (b := b) (l := l) (n := 4) (by simpa using h)

/-- `BDS.VIOLATION` (41_bit_destuffer.md R127). -/
theorem Bds.Destuffs.violation (h : Bds.Destuffs ⟨b, 0⟩ bits out errs) :
    Bds.Destuffs ⟨b, 4⟩ (b :: bits) out (errs + 1) := by
  simpa using Bds.Destuffs.cons (b := b) (l := b) (n := 4) (by simpa using h)

/-- Five bits that go on with a run of one: four are passed on, the fifth is the sixth of its run, a violation. -/
theorem Bds.Destuffs.five_more (h : Bds.Destuffs ⟨b, 0⟩ bits out errs) :
    Bds.Destuffs ⟨b, 0⟩ (b :: b :: b :: b :: b :: bits) (b :: b :: b :: b :: out) (errs + 1) := by
  have hrun : ∀ {k xs ys m}, k < 4 → Bds.Destuffs ⟨b, k + 1⟩ xs ys m → Bds.Destuffs ⟨b, k⟩ (b :: xs) (b :: ys) m :=
    fun hk => .pass_run hk.ne
  exact hrun (by decide) (hrun (by decide) (hrun (by decide) (hrun (by decide) h.violation)))

/-! ### Stuffing, read back -/

/-- `STUFF` on a bit that starts a run (30_encoding.md R85). -/
theorem stuffFrom_cons_new (hb : b ≠ l) (n : Nat) (bits : List Bool) :
    stuffFrom l n (b :: bits) = b :: stuffFrom b 1 bits := by
  simp [stuffFrom, hb]

/-- `STUFF` on a bit that goes on with a run, or starts the first one, and is not its fifth (30_encoding.md R85). -/
theorem stuffFrom_cons_run (hn : n ≠ 4) (b : Bool) (bits : List Bool) :
    stuffFrom b n (b :: bits) = b :: stuffFrom b (n + 1) bits := by
  cases n with
  | zero => rfl
  | succ n => simp [stuffFrom, show n ≠ 3 by omega]

/-- `STUFF` on the fifth bit of a run (30_encoding.md R85). -/
theorem stuffFrom_cons_fifth (b : Bool) (bits : List Bool) :
    stuffFrom b 4 (b :: bits) = b :: (!b) :: stuffFrom (!b) 1 bits := by
  simp [stuffFrom]

/-- While nothing has come, `STUFF` has no run to go on with. -/
theorem stuffFrom_zero (l l' : Bool) (bits : List Bool) : stuffFrom l 0 bits = stuffFrom l' 0 bits := by
  cases bits <;> rfl

/-- The invariant of the round trip: inside a run of `n + 1` bits `run_len` is `n`, and what follows is read back. -/
theorem destuffs_stuffFrom (hn : n ≤ 3) (l : Bool) (p : List Bool) :
    Bds.Destuffs ⟨l, n⟩ (stuffFrom l (n + 1) p) p 0 := by
  induction p generalizing l n with
  | nil => exact .nil _
  | cons b p ih =>
    by_cases hb : b = l
    · subst hb
      obtain rfl | hlt := hn.eq_or_lt
      · rw [stuffFrom_cons_fifth]
        exact .pass_run (by decide) (.destuff (Bool.not_ne_self b) (ih (Nat.zero_le 3) (!b)))
      · rw [stuffFrom_cons_run (by omega)]
        exact .pass_run (by omega) (ih hlt b)
    · rw [stuffFrom_cons_new hb]
      exact .pass_new (by omega) hb (ih (Nat.zero_le 3) b)

/-- After `n` leading 1 bits `run_len` is `n`, for its reset value counts one recessive bit; fewer than four may lead. -/
theorem destuffs_stuffFrom_leading {k : Nat} {p : List Bool} (hnk : n + k = 3)
    (hp : ¬ List.replicate (k + 1) true <+: p) : Bds.Destuffs ⟨true, n⟩ (stuffFrom true n p) p 0 := by
  induction p generalizing n k with
  | nil => exact .nil _
  | cons b p ih =>
    cases b with
    | false =>
      rw [stuffFrom_cons_new Bool.false_ne_true]
      exact .pass_new (by omega) Bool.false_ne_true (destuffs_stuffFrom (Nat.zero_le 3) false p)
    | true =>
      rw [List.replicate_succ, List.prefix_cons_inj] at hp
      cases k with
      | zero => exact absurd List.nil_prefix hp
      | succ k =>
        rw [stuffFrom_cons_run (by omega)]
        exact .pass_run (by omega) (ih (by omega) hp)

end

/-- Settles O51: no run has begun, so at most three 1 bits lead (`destuffs_stuffFrom_leading`). -/
theorem destuffingRoundTrip : Obligations.DestuffingRoundTrip := by
  unfold Obligations.DestuffingRoundTrip
  intro s p hf hs hp
  rw [stuff, stuffFrom_zero false true]
  exact destuffs_stuffFrom_leading (n := 0) (k := 3) rfl hp s hf hs

/-- Settles O42: the ports of a live step are those BTR and BDS drive; a reset and a halted tick raise none of them. -/
theorem strobesNeverClash : Obligations.StrobesNeverClash := by
  unfold Obligations.StrobesNeverClash
  intro s t h
  obtain ⟨-, ⟨-, rfl⟩ | ⟨-, -, rfl⟩ | ⟨⟨-, -, ho, -⟩, f, hf, rfl⟩⟩ := step_outcomes h
  · exact ⟨nofun, nofun, nofun⟩
  · exact ⟨nofun, nofun, nofun⟩
  · rw [tickResult_out (s := s.beginTick) ho rfl hf, emEffect_out]
    exact bdsEffect_strobesApart (s := s.beginTick.withWires (btrEffect s.beginTick).out)
      (btrEffect_sample_boundary s.beginTick)

/-- Settles O52, by induction on `j`: five further bits end where they began (`Bds.Destuffs.five_more`). -/
theorem longRunsRaiseOneViolationPerFive : Obligations.LongRunsRaiseOneViolationPerFive := by
  unfold Obligations.LongRunsRaiseOneViolationPerFive
  intro s b j hf hs
  have hruns : Bds.Destuffs ⟨b, 0⟩ (List.replicate (5 + 5 * j) b) (List.replicate (4 + 4 * j) b) (j + 1) := by
    induction j with
    | zero => exact (Bds.Destuffs.nil _).five_more
    | succ j ih => exact ih.five_more
  exact hruns s hf hs

/-- Settles O8: format S's selection outside the framing phases, and inside them without a sample. -/
theorem bdsBypassAndHold : Obligations.BdsBypassAndHold := by
  unfold Obligations.BdsBypassAndHold
  intro s
  constructor
  · intro hphase
    exact ⟨by simp [selectOp_s, State.framing_false_iff.2 hphase], rfl⟩
  · intro hphase hsample
    exact ⟨by simp [selectOp_s, State.framing_iff.2 hphase, hsample], rfl⟩

/-- Settles O9: format S's selection of a framing sample off a stuff position, by the bit. -/
theorem bdsPassesBitsOffAStuffPosition : Obligations.BdsPassesBitsOffAStuffPosition := by
  unfold Obligations.BdsPassesBitsOffAStuffPosition
  intro s hphase hsample hrun
  have hf := State.framing_iff.2 hphase
  have hpos := State.stuffPos_false_iff.2 hrun
  constructor
  · intro hbit
    exact ⟨by simp [selectOp_s, hf, hsample, hpos, State.differs_iff.2 hbit], rfl⟩
  · intro hbit
    exact ⟨by simp [selectOp_s, hf, hsample, hpos, State.differs_false_iff.2 hbit], rfl⟩

/-- Settles O10: format S's selection of a framing sample at a stuff position, by the bit. -/
theorem bdsWithholdsTheBitAtAStuffPosition : Obligations.BdsWithholdsTheBitAtAStuffPosition := by
  unfold Obligations.BdsWithholdsTheBitAtAStuffPosition
  intro s hphase hsample hrun
  have hf := State.framing_iff.2 hphase
  have hpos := State.stuffPos_iff.2 hrun
  constructor
  · intro hbit
    exact ⟨by simp [selectOp_s, hf, hsample, hpos, State.differs_iff.2 hbit], rfl⟩
  · intro hbit
    exact ⟨by simp [selectOp_s, hf, hsample, hpos, State.differs_false_iff.2 hbit], rfl⟩

end Sys2Proof.Machine

/-! PROOFS. The CRC engine (42_crc_engine.md): its step on one bit, which ticks take one, and what 15 bits leave of the
register. -/

namespace Sys2Proof.Machine

section

variable {s : State} {x : Word15} {b : Bool}

/-! ### One step of the register -/

/-- The register after one bit: shifted, and XORed with the constant when the bit differs from the one shifted out
(42_crc_engine.md R144, R145). -/
def crcStep (x : Word15) (b : Bool) : Word15 := if b = x.getLsbD 14 then crcShifted x else crcShiftedXor x

theorem crcStep_of_eq (hb : b = x.getLsbD 14) : crcStep x b = x <<< 1 := if_pos hb

theorem crcStep_of_ne (hb : b ≠ x.getLsbD 14) : crcStep x b = x <<< 1 ^^^ crcPoly := if_neg hb

/-- The constant is odd, so a register it was XORed into holds a 1 that `n` shifts do not push out. -/
theorem shiftLeft_xor_crcPoly_ne_zero {n : Nat} (hn : n < 15) (x : Word15) : (x <<< 1 ^^^ crcPoly) <<< n ≠ 0#15 := by
  intro hzero
  have hbit : ((x <<< 1 ^^^ crcPoly) <<< n).getLsbD n = true := by simp [hn, crcPoly]
  rw [hzero, BitVec.getLsbD_zero] at hbit
  cases hbit

/-! ### What CRC does in each of its situations -/

theorem State.fb_false_iff : s.fb = false ↔ (!s.inp.rxDom) = s.crc.reg.getLsbD 14 := by
  rw [← Bool.not_eq_true, State.fb_iff, not_not]

theorem State.crcEn_false_iff : s.crcEn = false ↔ s.framing = false ∨ s.out.sample = false := Bool.and_eq_false_iff

theorem State.crcClear_false_of_framing (hf : s.framing = true) : s.crcClear = false := by
  rw [State.crcClear_false_iff]
  intro hp
  simp [State.framing_false_iff.2 (.inl hp)] at hf

/-- A framing sample: one step with the bit of the tick (42_crc_engine.md R144, R145). -/
theorem crcEffect_of_sample (hf : s.framing = true) (hsample : s.out.sample = true) :
    crcEffect s = s.writeCrc (crcStep s.crc.reg s.rxBit) := by
  rw [crcEffect, State.crcClear_false_of_framing hf, State.crcEn_iff.2 ⟨hf, hsample⟩]
  cases hfb : s.fb with
  | false => exact congrArg s.writeCrc (if_pos (State.fb_false_iff.1 hfb)).symm
  | true => exact congrArg s.writeCrc (if_neg (State.fb_iff.1 hfb)).symm

/-- No framing sample (42_crc_engine.md R143). -/
theorem crcEffect_of_hold (hp : s.fa.phase ≠ .idle) (h : s.framing = false ∨ s.out.sample = false) :
    crcEffect s = s := by
  simp [crcEffect, State.crcClear_false_iff.2 hp, State.crcEn_false_iff.2 h]

/-- The register after any tick of CRC (42_crc_engine.md R142 to R146). -/
theorem crcEffect_reg (s : State) : (crcEffect s).crc.reg =
    if s.fa.phase = .idle then 0#15
    else if s.framing = true ∧ s.out.sample = true then crcStep s.crc.reg s.rxBit
    else s.crc.reg := by
  by_cases hp : s.fa.phase = .idle
  · rw [if_pos hp, crcEffect_of_idle hp, State.writeCrc_crc]
  · rw [if_neg hp]
    by_cases hbit : s.framing = true ∧ s.out.sample = true
    · rw [if_pos hbit, crcEffect_of_sample hbit.1 hbit.2, State.writeCrc_crc]
    · rw [if_neg hbit, crcEffect_of_hold hp (by simpa [imp_iff_not_or] using hbit)]

/-! ### Feeding raw bits to CRC -/

/-- CRC alone always completes, with its effect. -/
theorem runComponent_c (s : State) : runComponent .c s = .next (crcEffect s) := by
  have hsel := selectOp_c s
  obtain ⟨_, hexec⟩ := exec_of_format_c (selectOp_format hsel) s
  rw [runComponent, hsel, ← crc_effect hsel hexec]
  exact hexec

/-- Fed `bits` in a framing phase, CRC takes one step with each. -/
theorem feedCrc_eq_foldl (hf : s.framing = true) (bits : List Bool) :
    feedCrc s bits = some (bits.foldl crcStep s.crc.reg) := by
  induction bits generalizing s with
  | nil => rfl
  | cons b bits ih =>
    have hbit : (s.withRawBit b).rxBit = b := Bool.not_not b
    rw [feedCrc, runComponent_c, crcEffect_of_sample (s := s.withRawBit b) hf rfl, hbit]
    exact ih hf

/-- Why the register checks itself: a bit other than the one shifted out leaves a 1 that the bits to come cannot clear
(42_crc_engine.md R147). So at most 15 bits end at 0 exactly when they are the register's top bits and it holds no 1
below them. -/
theorem foldl_crcStep_eq_zero_iff {bits : List Bool} (hn : bits.length ≤ 15) (x : Word15) :
    bits.foldl crcStep x = 0#15 ↔
      x <<< bits.length = 0#15 ∧ bits = (List.range bits.length).map x.getMsbD := by
  induction bits generalizing x with
  | nil => simp
  | cons b bits ih =>
    rw [List.length_cons] at hn
    rw [List.foldl_cons, ih (by omega), List.length_cons, List.range_succ_eq_map, List.map_cons, List.map_map,
      List.cons.injEq]
    change _ ↔ _ ∧ b = x.getLsbD 14 ∧ _
    by_cases hb : b = x.getLsbD 14
    · have htail : (x <<< 1).getMsbD = x.getMsbD ∘ Nat.succ := funext fun _ => BitVec.getMsbD_shiftLeft x 1
      rw [crcStep_of_eq hb, ← BitVec.shiftLeft_add, Nat.add_comm 1, htail, and_iff_right hb]
    · rw [crcStep_of_ne hb]
      exact iff_of_false (fun ⟨hzero, _⟩ => shiftLeft_xor_crcPoly_ne_zero (by omega) x hzero)
        (fun ⟨_, hbit, _⟩ => hb hbit)

end

/-- Settles O46: the register is CRC's (`crcEffect_reg`), and the port `sample` is the strobe CRC read. -/
theorem crcCoversTheRawBits : Obligations.CrcCoversTheRawBits := by
  unfold Obligations.CrcCoversTheRawBits
  intro s t hlive h hover
  obtain ⟨f, hf, rfl⟩ := step_live hlive h
  obtain ⟨-, -, ho, -⟩ := hlive
  have hsample : (tickResult s.beginTick f).out.sample = s.beginTick.wired.out.sample := by
    rw [tickResult_out (s := s.beginTick) ho rfl hf, emEffect_out]
  obtain hr | hr := tickResult_registers (s := s.beginTick) ho hf
  · rw [hr] at hover
    cases hover
  · rw [hsample, hr, tickResult_inp]
    exact crcEffect_reg s.beginTick.wired

/-- Settles O53: 15 shifts clear any register, so the bits alone decide (`foldl_crcStep_eq_zero_iff`). -/
theorem crcSyndrome : Obligations.CrcSyndrome := by
  unfold Obligations.CrcSyndrome
  intro s bits hf hlen
  have hbits : bitsMsbFirst 15 s.crc.reg.toNat = (List.range 15).map s.crc.reg.getMsbD := rfl
  rw [feedCrc_eq_foldl hf, Option.some_inj, foldl_crcStep_eq_zero_iff hlen.le, hlen, hbits]
  exact and_iff_right (BitVec.shiftLeft_eq_zero (Nat.le_refl 15))

/-- Settles O11: format C's selection in `Idle`, and outside it without a framing sample. -/
theorem crcClearAndHold : Obligations.CrcClearAndHold := by
  unfold Obligations.CrcClearAndHold
  intro s
  constructor
  · intro hp
    exact ⟨by simp [selectOp_c, State.crcClear_iff.2 hp], rfl⟩
  · intro hphase
    have hclear : s.crcClear = false := by
      rw [State.crcClear_false_iff]
      rcases hphase with hp | hp | ⟨hp, -⟩ <;> simp [hp]
    have hen : s.crcEn = false := by
      rw [State.crcEn_false_iff, State.framing_false_iff]
      tauto
    exact ⟨by simp [selectOp_c, hclear, hen], rfl⟩

/-- Settles O12: format C's selection of a framing sample, by the bit and the one shifted out. -/
theorem crcAccumulatesEverySampledBit : Obligations.CrcAccumulatesEverySampledBit := by
  unfold Obligations.CrcAccumulatesEverySampledBit
  intro s hphase hsample
  have hf := State.framing_iff.2 hphase
  have hclear := State.crcClear_false_of_framing hf
  have hen := State.crcEn_iff.2 ⟨hf, hsample⟩
  constructor
  · intro hbit
    exact ⟨by simp [selectOp_c, hclear, hen, State.fb_false_iff.2 hbit], rfl⟩
  · intro hbit
    exact ⟨by simp [selectOp_c, hclear, hen, State.fb_iff.2 hbit], rfl⟩

end Sys2Proof.Machine

/-! PROOFS. The frame assembler (43_frame_assembler.md): which operation FA selects, what each does, and what a step
leaves of a frame in progress, of `fa.stuff_flag` and of the bytes that wait. -/

namespace Sys2Proof.Machine

section

variable {s t f : State}

/-! ### FA's bytes and shift register as numbers -/

/-- The bit shifted in, written as a word (43_frame_assembler.md R161). -/
theorem State.sh_eq (s : State) : s.sh = s.fa.shreg <<< 1 ||| (BitVec.ofBool (!s.inp.rxDom)).setWidth 15 := by
  unfold State.sh State.rxBit
  cases s.inp.rxDom <;> rfl

theorem State.dlc_eq (s : State) : s.dlc = s.sh.toNat % 16 := (fieldBytes_toNat s.sh).1

/-- A byte is the number it stands for. -/
theorem byte_eq_ofNat {b : Byte} {n : Nat} (h : b.toNat = n) : b = BitVec.ofNat 8 n := by
  rw [← h, BitVec.ofNat_toNat, BitVec.setWidth_eq]

theorem idHighByte_eq_ofNat (x : Word15) : idHighByte x = BitVec.ofNat 8 (x.toNat / 256 % 8) := by
  obtain ⟨-, -, h, -⟩ := fieldBytes_toNat x
  exact byte_eq_ofNat h

theorem lengthByte_eq_ofNat (x : Word15) : lengthByte x = BitVec.ofNat 8 (x.toNat % 16) := by
  obtain ⟨-, h, -⟩ := fieldBytes_toNat x
  exact byte_eq_ofNat h

theorem lowByte_eq_ofNat (x : Word15) : lowByte x = BitVec.ofNat 8 (x.toNat % 256) := by
  obtain ⟨-, -, -, h, -⟩ := fieldBytes_toNat x
  exact byte_eq_ofNat h

theorem crcHighByte_eq_ofNat (x : Word15) : crcHighByte x = BitVec.ofNat 8 (x.toNat / 256 % 128) := by
  obtain ⟨-, -, -, -, h⟩ := fieldBytes_toNat x
  have hx := x.isLt
  exact byte_eq_ofNat (by omega)

/-! ### What a move of FA does to the frame in progress -/

/-- With `run = 0` FA's move is the cancel (43_frame_assembler.md R163). -/
theorem FaMove.of_cancel (h : FaMove s f) (hrun : s.inp.run = false) : f = s.clearFrame := by
  cases h with
  | cancel => rfl
  | overrun hrun' | stayIdle hrun' | start hrun' | hold hrun' | check hrun' => cases hrun.symm.trans hrun'
  | sof hbit | shift hbit | idDone hbit | ctlDoneEmpty hbit | ctlDoneData hbit | ctlDoneIllegal hbit | dataByte hbit
  | dataLast hbit | crcDone hbit | gapCount hbit | gapDone hbit => cases hrun.symm.trans hbit.1

/-- The bit of this tick completes the gap (43_frame_assembler.md R181). -/
abbrev State.EndsGap (s : State) : Prop := s.fa.phase = .idleWait ∧ s.out.bitReady = true ∧ s.fa.cnt ≤ 1

/-- `fa.stuff_flag` latches `stuff_error` but where FA clears the frame buffer (43_frame_assembler.md R184). -/
theorem FaMove.stuffFlag (h : FaMove s f) (ho : f.overrun = false) :
    f.fa.stuffFlag = if s.inp.run = false ∨ s.EndsGap then false else (s.fa.stuffFlag || s.out.stuffError) := by
  have latches (hrun : s.inp.run = true) (hgap : ¬ s.EndsGap) :
      (s.fa.stuffFlag || s.out.stuffError) =
        if s.inp.run = false ∨ s.EndsGap then false else (s.fa.stuffFlag || s.out.stuffError) :=
    (if_neg (by simp [hrun, hgap])).symm
  cases h with
  | overrun => cases ho
  | cancel hrun => exact (if_pos (.inl hrun)).symm
  | gapDone hbit hp hlast => exact (if_pos (.inr ⟨hp, hbit.2.1, State.last_iff.1 hlast⟩)).symm
  | hold hrun _ hnone => exact latches hrun (by simp [hnone])
  | shift hbit hp => exact latches hbit.1 fun ⟨hgap, _⟩ => by simp [State.framing, Phase.framing, hgap] at hp
  | gapCount hbit _ hlast => exact latches hbit.1 fun ⟨_, _, hcnt⟩ => hcnt.not_gt (State.last_false_iff.1 hlast)
  | stayIdle hrun hp | start hrun hp | check hrun hp => exact latches hrun (by simp [hp])
  | sof hbit hp | idDone hbit hp | ctlDoneEmpty hbit hp | ctlDoneData hbit hp | ctlDoneIllegal hbit hp
  | dataByte hbit hp | dataLast hbit hp | crcDone hbit hp => exact latches hbit.1 (by simp [hp])

/-- Coherent counters count at least one bit to come, but in `Idle` and `CrcCheck` (10_state.md R43). -/
theorem Fa.Coherent.cnt_pos {r : Fa} (h : r.Coherent) (hp : r.phase ≠ .idle) (hc : r.phase ≠ .crcCheck) :
    1 ≤ r.cnt := by
  unfold Fa.Coherent at h
  cases hp' : r.phase with
  | idle => exact absurd hp' hp
  | crcCheck => exact absurd hp' hc
  | _ => simp only [hp'] at h; exact h.1

/-- The bits a frame still needs depend on FA's registers and `IFG_BITS` only. -/
theorem bitsToIdle_congr (hfa : t.fa = s.fa) (hcfg : t.cfg = s.cfg) : bitsToIdle t = bitsToIdle s := by
  unfold bitsToIdle
  rw [hfa, hcfg]

/-- FA in a frame moves nearer its end, by one bit of the field or by leaving the field for a shorter rest of the frame
(43_frame_assembler.md R186), unless no bit arrives or it hands over its verdict. -/
theorem FaMove.bitsToIdle_lt_or_eq (h : FaMove s f) (hs : s.fa.Coherent) (hrun : s.inp.run = true)
    (hp : s.fa.phase ≠ .idle) (ho : f.overrun = false) : bitsToIdle f < bitsToIdle s ∨
      bitsToIdle f = bitsToIdle s ∧ (s.out.bitReady = false ∨ s.fa.phase = .crcCheck) := by
  have hcnt := hs.cnt_pos hp
  cases h with
  | overrun => cases ho
  | cancel hrun' => cases hrun.symm.trans hrun'
  | stayIdle _ hidle | start _ hidle => exact absurd hidle hp
  | hold _ _ hnone => exact .inr ⟨rfl, .inl hnone⟩
  | check _ hcheck => exact .inr ⟨by simp [bitsToIdle, hcheck], .inr hcheck⟩
  | sof _ hphase hsof => exact .inl (by simp [bitsToIdle, hphase, hsof])
  | shift _ hframing hlast =>
    have hmore := State.last_false_iff.1 hlast
    left
    rcases State.framing_iff.1 hframing with hphase | hphase | hphase | hphase <;> simp [bitsToIdle, hphase] <;> omega
  | idDone _ hphase | ctlDoneEmpty _ hphase | ctlDoneData _ hphase | ctlDoneIllegal _ hphase | dataByte _ hphase
  | dataLast _ hphase | crcDone _ hphase | gapCount _ hphase | gapDone _ hphase =>
    specialize hcnt (by simp [hphase])
    left
    simp [bitsToIdle, hphase] <;> omega

/-! ### What a live step leaves of FA, and of the bytes -/

/-- EM moves a byte from `em.pend` to the stream or leaves both (44_byte_emitter.md R202, R203). -/
theorem emEffect_stream_append_pend (s : State) :
    (emEffect s).stream ++ (emEffect s).em.pend = s.stream ++ s.em.pend := by
  unfold emEffect
  cases hp : s.em.pend with
  | nil => simp [hp]
  | cons b rest => cases hready : s.inp.sinkReady <;> simp [hp]

/-- A live step that does not end halted: its FA registers are those FA's move leaves, and the move raised no
Overrun. -/
theorem step_fa (hlive : s.Live) (h : step s = .next t) (ho : t.overrun = false) :
    ∃ f, FaMove s.beginTick.wired f ∧ t.fa = f.fa ∧ f.overrun = false ∧ t.cfg = f.cfg := by
  obtain ⟨f, hf, rfl⟩ := step_live hlive h
  obtain ⟨-, -, hover, -⟩ := hlive
  refine ⟨f, hf, ?_, (commit_overrun ..).symm.trans ho, (tickResult_cfg ..).trans hf.cfg_eq.symm⟩
  obtain hr | hr := tickResult_registers (s := s.beginTick) hover hf <;> rw [hr] at ho ⊢
  cases ho

/-- The strobes of a live step are those FA read. -/
theorem step_strobes (hlive : s.Live) (h : step s = .next t) :
    t.out.bitReady = s.beginTick.wired.out.bitReady ∧ t.out.stuffError = s.beginTick.wired.out.stuffError := by
  obtain ⟨f, hf, rfl⟩ := step_live hlive h
  obtain ⟨-, -, ho, -⟩ := hlive
  rw [tickResult_out (s := s.beginTick) ho rfl hf, emEffect_out]
  exact ⟨rfl, rfl⟩

/-! ### The arms of an Overrun tick -/

/-- A BDS operation drives its own two strobes only. -/
theorem exec_out_of_format_s {i : Instr} (hi : i.format = .s) (he : exec i s = .next t) :
    ∃ x y, t.out = { s.out with bitReady := x, stuffError := y } := by
  obtain ⟨_, _, x, y, h⟩ := exec_of_format_s hi s
  cases h.symm.trans he
  exact ⟨x, y, rfl⟩

/-- An EM operation drives its own two ports only. -/
theorem exec_out_of_format_e {i : Instr} (hi : i.format = .e) (he : exec i s = .next t) :
    ∃ v b, t.out = { s.out with byteValid := v, byteData := b } := by
  obtain h | ⟨_, _, -, h | h⟩ := exec_of_format_e hi s <;> cases h.symm.trans he <;> exact ⟨_, _, rfl⟩

/-- FA ends a tick halted only by one of the seven rows of 43_frame_assembler.md R183. -/
theorem mem_overrunRows_of_overrun {i : Instr} (hi : i.format = .a) (he : exec i s = .next f)
    (hs : s.overrun = false) (hf : f.overrun = true) :
    i ∈ [Instr.faOverrunStart, .faOverrunId, .faOverrunCtl, .faOverrunData, .faOverrunCrc, .faOverrunCheck,
      .faOverrunGap] := by
  cases i
  case faOverrunStart | faOverrunId | faOverrunCtl | faOverrunData | faOverrunCrc | faOverrunCheck | faOverrunGap =>
    simp
  all_goals first | (cases hi; done) | (cases he; cases hs.symm.trans hf)

end

/-! ### The obligations -/

/-- Settles O24: format A by `selectOp_a`; `selectTick` reads format Y first. -/
theorem faSelectionFollowsPriority : Obligations.FaSelectionFollowsPriority := by
  unfold Obligations.FaSelectionFollowsPriority
  exact ⟨selectOp_a, fun s y hy => by simp [selectTick, hy]⟩

/-- Settles O38: the arms are those of the bundle, the commit is the one after Overrun, and each port is traced back to
the one arm that drives it. -/
theorem overrunTickKeepsItsOutputs : Obligations.OverrunTickKeepsItsOutputs := by
  unfold Obligations.OverrunTickKeepsItsOutputs
  rintro s t ⟨-, -, ho, hrst⟩ h hover
  obtain ⟨-, ⟨hreset, -⟩ | ⟨-, hhalt, -⟩ |
    ⟨-, -, -, x, d, c, e, a, b', d', c', e', f', hsel, hb, hd, hc, he, hf, rfl⟩⟩ := step_next_cases h
  · cases hrst.symm.trans hreset
  · cases ho.symm.trans hhalt
  obtain ⟨-, -, -, hd0, -, he0, ha0⟩ := selectTick_arms hsel
  rw [commit_overrun] at hover
  obtain ⟨p, q, hdout⟩ := exec_out_of_format_s (selectOp_format hd0) hd
  obtain ⟨v, w, heout⟩ := exec_out_of_format_e (selectOp_format he0) he
  refine ⟨x, d, c, e, a, b', d', e', hsel, hb, hd, he,
    mem_overrunRows_of_overrun (selectOp_format ha0) hf ho hover, ?_, commit_stream ..⟩
  rw [commit_of_overrun hover, heout, hdout]
  rfl

/-- Settles O45: FA's move is the cancel, which leaves `em.pend` alone, and EM only moves bytes into the stream. -/
theorem cancelForcesIdleAndKeepsPendingBytes : Obligations.CancelForcesIdleAndKeepsPendingBytes := by
  unfold Obligations.CancelForcesIdleAndKeepsPendingBytes
  intro s t hlive hrun h
  obtain ⟨f, hf, rfl⟩ := step_live hlive h
  obtain ⟨-, -, ho, -⟩ := hlive
  obtain rfl := hf.of_cancel hrun
  have hok : s.beginTick.wired.clearFrame.overrun = false := ho
  have hem : (if s.em.pend = [] then s.em else (emEffect s.beginTick.wired).em) = (emEffect s.beginTick.wired).em := by
    split
    · next hp =>
      rw [emEffect_of_empty (s := s.beginTick.wired) hp]
      rfl
    · rfl
  rw [tickResult, commit_of_ok hok]
  exact ⟨rfl, rfl, (congrArg (fun m : Em => _ ++ m.pend) hem).trans (emEffect_stream_append_pend s.beginTick.wired)⟩

/-- Settles O47: the flag after the step is the one FA's move leaves (`FaMove.stuffFlag`). -/
theorem stuffFlagLatchesUntilTheFrameEnds : Obligations.StuffFlagLatchesUntilTheFrameEnds := by
  unfold Obligations.StuffFlagLatchesUntilTheFrameEnds
  intro s t hlive h ho
  obtain ⟨f, hf, hfa, hover, -⟩ := step_fa hlive h ho
  obtain ⟨hready, herr⟩ := step_strobes hlive h
  obtain ⟨-, hinp⟩ := step_stim_inp h
  rw [hfa, hready, herr, hinp]
  exact hf.stuffFlag hover

/-- Settles O50: FA's move never raises the bound and each bit outside `CrcCheck` lowers it
(`FaMove.bitsToIdle_lt_or_eq`). -/
theorem frameProgressIsBounded : Obligations.FrameProgressIsBounded := by
  unfold Obligations.FrameProgressIsBounded
  rintro s t ⟨-, hc, -⟩ hlive hrun hp h ho
  obtain ⟨-, hs⟩ := State.coherent_iff.1 hc
  obtain ⟨f, hf, hfa, hover, hcfg⟩ := step_fa hlive h ho
  obtain ⟨hready, -⟩ := step_strobes hlive h
  rw [bitsToIdle_congr hfa hcfg, hready]
  obtain hlt | ⟨heq, hnone⟩ := hf.bitsToIdle_lt_or_eq hs hrun hp hover
  · exact ⟨hlt.le, fun _ _ => hlt⟩
  · refine ⟨heq.le, fun hbit hcheck => ?_⟩
    rcases hnone with hnone | hphase
    · cases hbit.symm.trans hnone
    · exact absurd hphase hcheck

/-- Settles O14: `run = 0` comes first in FA's order, and the last gap bit ends `IdleWait`. -/
theorem cancelAndGapDoneClearTheFrame : Obligations.CancelAndGapDoneClearTheFrame := by
  unfold Obligations.CancelAndGapDoneClearTheFrame
  intro s
  refine ⟨fun hrun => ?_, fun hrun hp hready hpend hcnt => ?_, rfl, rfl⟩
  · simp [selectOp_a, faArmByPriority, hrun]
  · simp [selectOp_a, faArmByPriority, hrun, hp, hready, State.blocked_false_iff.2 hpend, State.last_iff.2 hcnt]

/-- Settles O15: FA's order in each phase without its event; the seven operations are one hold. -/
theorem faHoldsWithoutABit : Obligations.FaHoldsWithoutABit := by
  unfold Obligations.FaHoldsWithoutABit
  intro s
  constructor
  · intro hrun
    refine ⟨fun hp hedge => ?_, fun hp hpend hready => ?_, ?_⟩
    · simp [selectOp_a, faArmByPriority, hrun, hp, hedge]
    · simp [selectOp_a, faArmByPriority, hrun, hp, hready, State.blocked_iff.2 hpend]
    · refine ⟨?_, ?_, ?_, ?_, ?_⟩ <;> intro hp hready <;> simp [selectOp_a, faArmByPriority, hrun, hp, hready]
  · simp only [List.forall_mem_cons]
    exact ⟨rfl, rfl, rfl, rfl, rfl, rfl, rfl, nofun⟩

/-- Settles O16: FA's order with no byte waiting, on a start edge and on the start bit. -/
theorem faStartAndStartOfFrame : Obligations.FaStartAndStartOfFrame := by
  unfold Obligations.FaStartAndStartOfFrame
  intro s
  refine ⟨fun hrun hpend => ?_, rfl, rfl⟩
  have hb := State.blocked_false_iff.2 hpend
  constructor
  · intro hp hedge
    simp [selectOp_a, faArmByPriority, hrun, hb, hp, hedge]
  · intro hp hready hsof
    simp [selectOp_a, faArmByPriority, hrun, hb, hp, hready, hsof]

/-- Settles O17: FA's order for a bit that is not the last, and the shift register by `State.sh_eq`. -/
theorem faShiftsAFieldBitAndCountsAGapBit : Obligations.FaShiftsAFieldBitAndCountsAGapBit := by
  unfold Obligations.FaShiftsAFieldBitAndCountsAGapBit
  intro s
  refine ⟨fun hrun hready hpend hcnt => ?_, ?_, rfl⟩
  · have hb := State.blocked_false_iff.2 hpend
    have hlast := State.last_false_iff.2 hcnt
    refine ⟨fun hp hsof => ?_, ?_⟩
    · simp [selectOp_a, faArmByPriority, hrun, hready, hb, hlast, hp, hsof]
    · refine ⟨?_, ?_, ?_, ?_⟩ <;> intro hp <;> simp [selectOp_a, faArmByPriority, hrun, hready, hb, hlast, hp]
  · simp only [List.forall_mem_cons, ← State.sh_eq]
    exact ⟨rfl, rfl, rfl, rfl, nofun⟩

/-- Settles O18: FA's order for the last identifier bit, and the two bytes as numbers. -/
theorem faIdentifierDone : Obligations.FaIdentifierDone := by
  unfold Obligations.FaIdentifierDone
  intro s
  constructor
  · intro hrun hp hsof hready hpend hcnt
    simp [selectOp_a, faArmByPriority, hrun, hp, hsof, hready, State.blocked_false_iff.2 hpend, State.last_iff.2 hcnt]
  · rw [← idHighByte_eq_ofNat, ← lowByte_eq_ofNat]
    rfl

/-- Settles O19: FA's order for the last control bit by the length code, which `State.dlc_eq` gives as a number. -/
theorem faControlDone : Obligations.FaControlDone := by
  unfold Obligations.FaControlDone
  intro s
  rw [← lengthByte_eq_ofNat, ← State.dlc_eq]
  refine ⟨fun hrun hp hready hpend hcnt => ?_, rfl, rfl, rfl⟩
  have hsel : selectOp .a s =
      .ok (if s.dlc = 0 then .faCtlDoneEmpty else if s.dlc ≤ 8 then .faCtlDoneData else .faCtlDoneIllegal) := by
    simp [selectOp_a, faArmByPriority, hrun, hp, hready, State.blocked_false_iff.2 hpend, State.last_iff.2 hcnt]
  rw [hsel]
  refine ⟨fun hzero => ?_, fun hpos hle => ?_, fun hgt => ?_⟩
  · rw [if_pos hzero]
  · rw [if_neg (by omega), if_pos hle]
  · rw [if_neg (by omega), if_neg (by omega)]

/-- Settles O20: FA's order for the last bit of a data byte by `fa.byte_cnt`, and the byte as a number. -/
theorem faDataByteDone : Obligations.FaDataByteDone := by
  unfold Obligations.FaDataByteDone
  intro s
  rw [← lowByte_eq_ofNat]
  refine ⟨fun hrun hp hready hpend hcnt => ?_, rfl, rfl⟩
  have hsel : selectOp .a s = .ok (if 1 < s.fa.byteCnt then .faDataByte else .faDataLast) := by
    simp [selectOp_a, faArmByPriority, hrun, hp, hready, State.blocked_false_iff.2 hpend, State.last_iff.2 hcnt]
  rw [hsel]
  exact ⟨fun hmore => by rw [if_pos (Nat.lt_of_succ_le hmore)], fun hone => by rw [if_neg hone.not_gt]⟩

/-- Settles O21: FA's order for the last CRC bit, and the two bytes as numbers. -/
theorem faCrcFieldDone : Obligations.FaCrcFieldDone := by
  unfold Obligations.FaCrcFieldDone
  intro s
  constructor
  · intro hrun hp hready hpend hcnt
    simp [selectOp_a, faArmByPriority, hrun, hp, hready, State.blocked_false_iff.2 hpend, State.last_iff.2 hcnt]
  · rw [← crcHighByte_eq_ofNat, ← lowByte_eq_ofNat]
    rfl

/-- Settles O22: in `CrcCheck` FA's order reads whether a byte waits before it reads the bit. -/
theorem faVerdict : Obligations.FaVerdict := by
  unfold Obligations.FaVerdict
  intro s
  refine ⟨fun hrun hp hpend => ?_, rfl⟩
  simp [selectOp_a, faArmByPriority, hrun, hp, State.blocked_false_iff.2 hpend]

/-- Settles O23: FA's order in each phase with its event and a byte waiting; the seven operations are one exception. -/
theorem faOverrunOperations : Obligations.FaOverrunOperations := by
  unfold Obligations.FaOverrunOperations
  intro s
  constructor
  · intro hrun hpend
    have hb := State.blocked_iff.2 hpend
    refine ⟨fun hp hedge => ?_, ?_⟩
    · simp [selectOp_a, faArmByPriority, hrun, hb, hp, hedge]
    · refine ⟨?_, ?_, ?_, ?_, ?_, ?_⟩ <;> intro hp hready <;>
        simp [selectOp_a, faArmByPriority, hrun, hb, hp, hready]
  · simp only [List.forall_mem_cons]
    exact ⟨rfl, rfl, rfl, rfl, rfl, rfl, rfl, nofun⟩

end Sys2Proof.Machine

/-! PROOFS. The byte emitter (44_byte_emitter.md): what EM's three operations do, when a byte FA hands over is presented,
and what becomes of the bytes in a live tick. -/

namespace Sys2Proof.Machine

section

variable {s t f : State}

/-! ### What EM does with a waiting byte -/

/-- With the sink ready the head of `em.pend` is presented and taken (44_byte_emitter.md R202). -/
theorem emEffect_of_ready {b : Byte} {rest : List Byte} (hp : s.em.pend = b :: rest) (hr : s.inp.sinkReady = true) :
    emEffect s = (s.presentByte b).pushByte b rest := by
  simp [emEffect, hp, hr]

/-- With the sink not ready the head of `em.pend` is presented only (44_byte_emitter.md R203). -/
theorem emEffect_of_full {b : Byte} {rest : List Byte} (hp : s.em.pend = b :: rest) (hr : s.inp.sinkReady = false) :
    emEffect s = s.presentByte b := by
  simp [emEffect, hp, hr]

/-- The sink gains nothing or the byte at the head of `em.pend` (44_byte_emitter.md R206). -/
theorem emEffect_stream_eq_or (s : State) : (emEffect s).stream = s.stream ∨
    ∃ b rest, s.em.pend = b :: rest ∧ (emEffect s).stream = s.stream ++ [b] := by
  cases hp : s.em.pend with
  | nil => exact .inl (by rw [emEffect_of_empty hp, State.presentNothing_stream])
  | cons b rest =>
    cases hr : s.inp.sinkReady with
    | false => exact .inl (by rw [emEffect_of_full hp hr, State.presentByte_stream])
    | true => exact .inr ⟨b, rest, rfl, by rw [emEffect_of_ready hp hr, State.pushByte_stream, State.presentByte_stream]⟩

/-- EM's selected operation is EM's effect. -/
theorem exec_of_selectOp_e {i : Instr} (hi : selectOp .e s = .ok i) : exec i s = .next (emEffect s) := by
  obtain ⟨t, ht⟩ := exec_total i s
  rw [ht, em_effect hi ht]

/-! ### What FA leaves of `em.pend` -/

/-- FA's move raised Overrun only as the move of that name. -/
theorem FaMove.eq_raiseOverrun (h : FaMove s f) (ho : s.overrun = false) (hf : f.overrun = true) :
    f = s.raiseOverrun := by
  refine h.eq_raiseOverrun_or.resolve_right fun heq => ?_
  cases hf.symm.trans (heq.trans ho)

/-- While bytes wait FA hands none over: each move that does takes a bit or a verdict, which needs an empty `em.pend`
(44_byte_emitter.md R204). -/
theorem FaMove.em_of_waiting (h : FaMove s f) (hp : s.em.pend ≠ []) (hf : f.overrun = false) : f.em = s.em := by
  have hb := State.blocked_iff.2 hp
  cases h with
  | overrun => cases hf
  | cancel | stayIdle | start | hold | sof | shift | gapCount | gapDone => rfl
  | check _ _ hfree => cases hb.symm.trans hfree
  | idDone hbit | ctlDoneEmpty hbit | ctlDoneData hbit | ctlDoneIllegal hbit | dataByte hbit | dataLast hbit
  | crcDone hbit =>
    obtain ⟨-, -, hfree⟩ := hbit
    cases hb.symm.trans hfree

/-! ### A live step by its arms -/

/-- What EM and FA select, they select on the snapshot they execute on: the pre-tick state with the strobes of BTR and
BDS (00_scope.md R3). -/
theorem selectOp_e_a_of_selectTick {b d : State} {i j k l m : Instr} (h : selectTick s = .ok (.arms i j k l m))
    (hb : exec i s = .next b) (hd : exec j (s.withWires b.out) = .next d) :
    selectOp .e (s.withWires d.out) = .ok l ∧ selectOp .a (s.withWires d.out) = .ok m := by
  obtain ⟨-, -, -, -, -, he, ha⟩ := selectTick_arms h
  have hbtr : wiresAfter i s = b.out := by rw [wiresAfter, hb]
  rw [hbtr] at he ha
  have hbds : wiresAfter j (s.withWires b.out) = d.out := by rw [wiresAfter, hd]
  rw [hbds] at he ha
  exact ⟨he, ha⟩

/-- A live step by the arms `selectTick` fixes: EM's effect and FA's move on the snapshot with the strobes, and the
commit. -/
theorem step_live_arms (hlive : s.Live) (h : step s = .next t) :
    ∃ i j k l m b d c f, selectTick s.beginTick = .ok (.arms i j k l m) ∧ exec i s.beginTick = .next b ∧
      exec j (s.beginTick.withWires b.out) = .next d ∧ exec m (s.beginTick.withWires d.out) = .next f ∧
      FaMove (s.beginTick.withWires d.out) f ∧
      t = commit s.beginTick b d c (emEffect (s.beginTick.withWires d.out)) f := by
  obtain ⟨-, -, ho, hrst⟩ := hlive
  obtain ⟨-, ⟨hreset, -⟩ | ⟨-, hhalt, -⟩ |
    ⟨-, -, -, i, j, k, l, m, b, d, c, e, f, hsel, hb, hd, -, he, hf, ht⟩⟩ := step_next_cases h
  · cases hrst.symm.trans hreset
  · cases ho.symm.trans hhalt
  · obtain ⟨hl, hm⟩ := selectOp_e_a_of_selectTick hsel hb hd
    rw [em_effect hl he] at ht
    exact ⟨i, j, k, l, m, b, d, c, f, hsel, hb, hd, hf, fa_move hm hf, ht⟩

/-! ### The bytes taken and the bytes waiting after a commit -/

variable {b d c : State} {o : Outputs}

/-- Without Overrun they are those before the tick and those FA's arm hands over: EM alone moves the bytes that wait,
FA's bytes arrive where none does (44_byte_emitter.md R204 to R206). -/
theorem commit_stream_append_pend (hf : f.overrun = false) :
    (commit s b d c (emEffect (s.withWires o)) f).stream ++ (commit s b d c (emEffect (s.withWires o)) f).em.pend =
      s.stream ++ s.em.pend ++ enqueued s f := by
  rw [commit_of_ok hf, enqueued]
  by_cases hp : s.em.pend = []
  · rw [if_pos hp, if_pos hp, hp, emEffect_of_empty (s := s.withWires o) hp, List.append_nil]
    rfl
  · rw [if_neg hp, if_neg hp, List.append_nil]
    exact emEffect_stream_append_pend (s.withWires o)

/-- FA's arm hands over at most two bytes (44_byte_emitter.md R204). -/
theorem FaMove.enqueued_length_le (h : FaMove (s.withWires o) f) (hs : s.em.pend.length ≤ 2) :
    (enqueued s f).length ≤ 2 := by
  unfold enqueued
  split
  · exact h.pend_length_le hs
  · exact Nat.zero_le 2

/-- With Overrun the waiting bytes are discarded (44_byte_emitter.md R206). -/
theorem commit_pend_of_overrun (h : FaMove (s.withWires o) f) (ho : s.overrun = false) (hf : f.overrun = true)
    (e : State) : (commit s b d c e f).em.pend = [] := by
  rw [commit_of_overrun hf, h.eq_raiseOverrun ho hf]
  rfl

end

/-! ### The obligations -/

/-- Settles O35: the arms are those of `step_live_arms`; FA's move and the commit say what becomes of the bytes. -/
theorem bytesAreNeverLostOrRepeated : Obligations.BytesAreNeverLostOrRepeated := by
  unfold Obligations.BytesAreNeverLostOrRepeated
  intro s t hlive h
  obtain ⟨i, j, k, l, m, b, d, c, f, hsel, hb, hd, hf, hmove, rfl⟩ := step_live_arms hlive h
  obtain ⟨-, ⟨-, -, -, -, hlen⟩, ho, -⟩ := hlive
  rw [commit_overrun]
  refine ⟨i, j, k, l, m, b, d, f, hsel, hb, hd, hf, fun hok => ⟨?_, ?_, fun hp => ?_⟩, fun hover => ⟨?_, ?_⟩⟩
  · exact commit_stream_append_pend (s := s.beginTick) hok
  · exact hmove.enqueued_length_le (s := s.beginTick) hlen
  · exact hmove.em_of_waiting hp hok
  · exact commit_pend_of_overrun hmove ho hover _
  · rw [commit_stream]
    exact emEffect_stream_eq_or (s.beginTick.withWires d.out)

/-- Settles O49: the ports of each tick show `em.pend` as it was before the tick (O48). -/
theorem anEnqueuedByteIsPresentedNextTick : Obligations.AnEnqueuedByteIsPresentedNextTick := by
  unfold Obligations.AnEnqueuedByteIsPresentedNextTick
  intro s t u b rest hs hempty hst hhead ht htu
  obtain ⟨hfirst, -⟩ := portsShowThePreTickState s t hs hst
  obtain ⟨hvalid, hdata, -⟩ := portsShowThePreTickState t u ht htu
  rw [hempty] at hfirst
  rw [hhead] at hvalid hdata
  exact ⟨hfirst, hvalid, hdata⟩

/-- Settles O13: format E's selection by whether a byte waits and the sink is ready, and EM's effect in each case. -/
theorem emitterOperations : Obligations.EmitterOperations := by
  unfold Obligations.EmitterOperations
  intro s
  refine ⟨fun hp => ?_, fun b rest hp hr => ?_, fun b rest hp hr => ?_⟩
  · have hsel : selectOp .e s = .ok .emEmpty := by simp [selectOp_e, State.blocked_false_iff.2 hp]
    refine ⟨hsel, (exec_of_selectOp_e hsel).trans ?_⟩
    rw [emEffect_of_empty hp]
    rfl
  · have hsel : selectOp .e s = .ok .emPush := by simp [selectOp_e, State.blocked, hp, hr]
    refine ⟨hsel, (exec_of_selectOp_e hsel).trans ?_⟩
    rw [emEffect_of_ready hp hr]
    rfl
  · have hsel : selectOp .e s = .ok .emStall := by simp [selectOp_e, State.blocked, hp, hr]
    refine ⟨hsel, (exec_of_selectOp_e hsel).trans ?_⟩
    rw [emEffect_of_full hp hr]
    rfl

end Sys2Proof.Machine

/-! PROOFS. Exceptions (60_exceptions.md): which operations a tick executes, when the one exception (Overrun) is raised,
and that the halt it leads to lasts until a reset. -/

namespace Sys2Proof.Machine

section

variable {s t f : State}

/-! ### The priority within a tick -/

/-- An operation that format Y selects is the whole bundle (60_exceptions.md R227). -/
theorem selectTick_of_selectOp_y {y : Instr} (h : selectOp .y s = .ok y) : selectTick s = .ok (.system y) := by
  simp [selectTick, h]

/-- FA cancels exactly when the host does not let it run (43_frame_assembler.md R163). -/
theorem faArmByPriority_eq_faCancel_iff : faArmByPriority s = .faCancel ↔ s.inp.run = false := by
  unfold faArmByPriority
  cases s.inp.run with
  | false => simp
  | true => cases s.fa.phase <;> simp only [Bool.true_eq_false, if_false, iff_false] <;> split_ifs <;> simp

/-- What the slots of a selected bundle hold: an operation of each component, FA's being the cancel exactly when
`run = 0`. -/
theorem selectTick_arms_wellFormed {i j k l m : Instr} (h : selectTick s = .ok (.arms i j k l m)) :
    (Bundle.arms i j k l m).WellFormed ∧ (m = .faCancel ↔ s.inp.run = false) := by
  obtain ⟨-, -, hi, hj, hk, hl, hm⟩ := selectTick_arms h
  refine ⟨⟨selectOp_format hi, selectOp_format hj, selectOp_format hk, selectOp_format hl, selectOp_format hm⟩, ?_⟩
  rw [selectOp_a] at hm
  cases hm
  exact faArmByPriority_eq_faCancel_iff

/-! ### When Overrun is raised -/

/-- The event FA waits for: a start edge in `Idle`, a bit in every other phase (60_exceptions.md R224). -/
abbrev State.HasEvent (s : State) : Prop :=
  if s.fa.phase = .idle then s.startEdge = true else s.out.bitReady = true

/-- FA's move raises Overrun exactly on an event that finds a byte waiting (43_frame_assembler.md R183). -/
theorem FaMove.overrun_iff (h : FaMove s f) (ho : s.overrun = false) :
    f.overrun = true ↔ s.inp.run = true ∧ s.blocked = true ∧ s.HasEvent := by
  have keeps (hno : ¬ (s.inp.run = true ∧ s.blocked = true ∧ s.HasEvent)) :
      s.overrun = true ↔ s.inp.run = true ∧ s.blocked = true ∧ s.HasEvent := iff_of_false (by simp [ho]) hno
  cases h with
  | overrun hrun hb hev =>
    refine iff_of_true rfl ⟨hrun, hb, ?_⟩
    rcases hev with ⟨hedge, hp⟩ | ⟨hbit, hp⟩
    · exact (if_pos hp).mpr hedge
    · exact (if_neg hp).mpr hbit
  | cancel hrun => exact keeps (by simp [hrun])
  | stayIdle _ hp hedge => exact keeps (by simp [hp, hedge])
  | hold _ hp hbit => exact keeps (by simp [hp, hbit])
  | start _ _ _ hb | check _ _ hb => exact keeps (by simp [hb])
  | sof hbit | shift hbit | idDone hbit | ctlDoneEmpty hbit | ctlDoneData hbit | ctlDoneIllegal hbit | dataByte hbit
  | dataLast hbit | crcDone hbit | gapCount hbit | gapDone hbit =>
    obtain ⟨-, -, hb⟩ := hbit
    exact keeps (by simp [hb])

/-- A live tick that ends halted leaves every register but the fault bit at reset (43_frame_assembler.md R183). -/
theorem tickResult_registers_of_overrun (ho : s.overrun = false) (h : FaMove s.wired f)
    (hover : (tickResult s f).overrun = true) : (tickResult s f).toRegs = { Regs.reset with overrun := true } := by
  refine (tickResult_registers ho h).resolve_right fun hr => ?_
  rw [hr] at hover
  cases hover

/-! ### The halt -/

/-- A halted tick without a reset changes no register and pushes no byte (70_reset_and_hazards.md R251). -/
theorem step_halted (hover : s.overrun = true) (hrst : s.beginTick.inp.rst = false) (h : step s = .next t) :
    t.toRegs = s.toRegs ∧ t.stream = s.stream := by
  obtain ⟨-, ⟨hreset, -⟩ | ⟨-, -, rfl⟩ | ⟨⟨-, -, ho, -⟩, -⟩⟩ := step_outcomes h
  · cases hrst.symm.trans hreset
  · exact ⟨rfl, rfl⟩
  · cases hover.symm.trans ho

/-- Nor does a run of such ticks, however long (60_exceptions.md R229). -/
theorem run_halted {k : Nat} (hover : s.overrun = true) (hfree : s.ResetFree k)
    (h : Host.Core.run Sys2Proof.core k s = .next t) : t.toRegs = s.toRegs ∧ t.stream = s.stream := by
  induction k generalizing s with
  | zero => cases h; exact ⟨rfl, rfl⟩
  | succ k ih =>
    obtain ⟨u, hstep, hrun⟩ := run_succ_next h
    obtain ⟨hrst, hfree'⟩ := hfree.step hstep
    obtain ⟨hregs, hstream⟩ := step_halted hover hrst hstep
    obtain ⟨hregs', hstream'⟩ := ih ((congrArg Regs.overrun hregs).trans hover) hfree' hrun
    exact ⟨hregs'.trans hregs, hstream'.trans hstream⟩

end

/-! ### The obligations -/

/-- Settles O25: format Y is read first, reset before the halt; otherwise each component selects, and the formats and
the cancel are those of `selectTick_arms_wellFormed`. -/
theorem tickPriority : Obligations.TickPriority := by
  unfold Obligations.TickPriority
  intro s hl
  refine ⟨fun hrst => ?_, fun hrst hover => ?_, fun hrst ho => ?_⟩
  · exact selectTick_of_selectOp_y (by simp [selectOp_y, hrst])
  · exact selectTick_of_selectOp_y (by simp [selectOp_y, hrst, hover])
  · obtain ⟨i, j, k, l, m, hsel⟩ := selectTick_of_live (s := s.beginTick) hl hrst ho
    exact ⟨i, j, k, l, m, hsel, selectTick_arms_wellFormed hsel⟩

/-- Settles O34, by induction on the run (`run_halted`). -/
theorem haltedUntilReset : Obligations.HaltedUntilReset := by
  unfold Obligations.HaltedUntilReset
  intro k s t hover hlen hwords h
  exact run_halted hover ⟨hlen, hwords⟩ h

/-- Settles O37: the fault bit after the step is the one FA's move leaves (`FaMove.overrun_iff`), and FA saw the strobes
that the ports show. -/
theorem overrunExactlyOnAnEventWhileBlocked : Obligations.OverrunExactlyOnAnEventWhileBlocked := by
  unfold Obligations.OverrunExactlyOnAnEventWhileBlocked
  intro s t hlive h
  obtain ⟨hready, -⟩ := step_strobes hlive h
  obtain ⟨f, hf, rfl⟩ := step_live hlive h
  obtain ⟨-, -, ho, -⟩ := hlive
  refine ⟨?_, tickResult_registers_of_overrun (s := s.beginTick) ho hf⟩
  rw [hready, tickResult, commit_overrun, hf.overrun_iff ho, State.blocked_iff]
  rfl

end Sys2Proof.Machine

/-! PROOFS. Reset and hazards (70_reset_and_hazards.md): the reset tick, the halted tick and the state at the first tick. -/

namespace Sys2Proof.Machine

variable {s t : State} {y : Instr}

/-- A system operation that format Y selects is the whole tick: it alone is selected, and the step is its effect. -/
theorem step_of_selectOp_y (hl : s.cfg.Legal) (hy : selectOp .y s.beginTick = .ok y)
    (he : exec y s.beginTick = .next t) :
    step s = .next t ∧ selectTick s.beginTick = .ok (.system y) ∧ exec y s.beginTick = .next t := by
  have hsel : selectTick s.beginTick = .ok (.system y) := selectTick_of_selectOp_y hy
  exact ⟨(step_of_system hl hsel).trans he, hsel, he⟩

/-- Settles O1: format Y selects `SYS.RESET` before anything else, and the tick is its effect, `State.resetTick`. -/
theorem resetTickRestoresEveryRegister : Obligations.ResetTickRestoresEveryRegister := by
  unfold Obligations.ResetTickRestoresEveryRegister
  intro s hl hrst
  have hy : selectOp .y s.beginTick = .ok .sysReset := by simp [selectOp_y, hrst]
  obtain ⟨hstep, hsel, hexec⟩ := step_of_selectOp_y hl hy rfl
  exact ⟨s.beginTick.resetTick, hstep, hsel, hexec, rfl, rfl, rfl, rfl⟩

/-- Settles O2: without a reset format Y selects `SYS.HALT`, and the tick is its effect, `State.stayHalted`. -/
theorem haltedTickChangesNothing : Obligations.HaltedTickChangesNothing := by
  unfold Obligations.HaltedTickChangesNothing
  intro s hl hrst hover
  have hy : selectOp .y s.beginTick = .ok .sysHalt := by simp [selectOp_y, hrst, hover]
  obtain ⟨hstep, hsel, hexec⟩ := step_of_selectOp_y hl hy rfl
  exact ⟨s.beginTick.stayHalted, hstep, hsel, hexec, rfl, rfl, rfl, rfl⟩

/-- Settles O3: both states are built on `Regs.reset`, whatever the configuration. -/
theorem powerOnStateHoldsTheResetValues : Obligations.PowerOnStateHoldsTheResetValues := by
  unfold Obligations.PowerOnStateHoldsTheResetValues
  exact fun _ => ⟨rfl, rfl⟩

end Sys2Proof.Machine
